-- ==== Sys2Proof/Word.lean ====
section
/-! DEFINITION. The word types of the hardware (R8, R10): bytes, 16-bit words, and the 4- and 12-bit fields of an opcode. -/

namespace Sys2Proof

/-- An 8-bit value: a memory byte, a V register, a timer (R8 `REG_BITS`). -/
abbrev Byte := BitVec 8

/-- A 16-bit value: an opcode, `I`, `PC`, a stack slot (R8 `I_BITS`, `PC_BITS`). -/
abbrev Word := BitVec 16

/-- A 4-bit value: a register number, a key index, the height `N` (R72, R104). -/
abbrev Nibble := BitVec 4

/-- A 12-bit address immediate `NNN` (R72). -/
abbrev Addr12 := BitVec 12

end Sys2Proof
end

