-- ==== Sys2Proof/Config.lean ====
section
/-! DEFINITION. The fixed parameters of R8, the edge policies the document allows (R9, R163), and the one free value:
the random byte (R144). The parameters the spec decides and a test could show wrong are in Machine/Params.lean. -/

namespace Sys2Proof.Config

/-- R8 `MEM_SIZE`: bytes of memory, addresses 0x000 to 0xFFF. -/
def memSize : Nat := 4096

/-- R8 `PROG_BASE`: load address and reset value of `PC`. -/
def progBase : Nat := 0x200

/-- R8 `PROG_MAX`: the largest program image, `4096 - 0x200`. -/
def progMax : Nat := 3584

/-- R8 `FONT_SIZE`: bytes of font table, from address 0. -/
def fontSize : Nat := 80

/-- R9 `DRAW_EDGE_POLICY`: what a sprite pixel beyond the grid does (R163). -/
inductive EdgePolicy where
  /-- Each coordinate is reduced modulo the grid's size. -/
  | wrap
  /-- A pixel outside the grid is dropped and cannot collide. -/
  | clip
  deriving DecidableEq, Repr

/-- The byte the `n`-th executed CXNN draws (R144, D14). FREE VALUE (entry 2): "each execution of CXNN consumes one byte
`rnd` supplied from outside the core, under no law". It has no body: nothing proves a value of it. DESIGN CHOICE,
unsafe for a claim that compares runs (entry 33): one function of `n` alone gives two runs from reset the same `n`-th byte,
which the spec leaves open. -/
opaque randomByte : Nat → Byte

end Sys2Proof.Config
end

