-- ==== Sys2Proof/Syntax.lean ====
section
/-! DEFINITION. The 34 instructions (R76), one constructor per row of spec/opcode_table.json in its order. Operands are
the fields of R72 at their widths, so an operand outside its range cannot be written. -/

namespace Sys2Proof

/-- The instruction set (R76). `x`, `y` are register numbers, `nn` an 8-bit and `nnn` a 12-bit immediate, `n` a sprite
height (R74). -/
inductive Instr where
  /-- 00E0, clear the display (R161). -/
  | cls
  /-- 00EE, return from subroutine (R114). -/
  | ret
  /-- 1NNN, jump (R111). -/
  | jp (nnn : Addr12)
  /-- 2NNN, call subroutine (R112). -/
  | call (nnn : Addr12)
  /-- 3XNN, skip if `VX = NN` (R121). -/
  | seImm (x : Nibble) (nn : Byte)
  /-- 4XNN, skip if `VX ≠ NN` (R122). -/
  | sneImm (x : Nibble) (nn : Byte)
  /-- 5XY0, skip if `VX = VY` (R123). -/
  | seReg (x y : Nibble)
  /-- 6XNN, load immediate (R131). -/
  | ldImm (x : Nibble) (nn : Byte)
  /-- 7XNN, add immediate, no flag (R132). -/
  | addImm (x : Nibble) (nn : Byte)
  /-- 8XY0, copy register (R133). -/
  | ldReg (x y : Nibble)
  /-- 8XY1, bitwise OR (R134). -/
  | or (x y : Nibble)
  /-- 8XY2, bitwise AND (R135). -/
  | and (x y : Nibble)
  /-- 8XY3, bitwise exclusive OR (R136). -/
  | xor (x y : Nibble)
  /-- 8XY4, add registers, VF = carry (R137). -/
  | addReg (x y : Nibble)
  /-- 8XY5, `VX - VY`, VF = not borrow (R138). -/
  | sub (x y : Nibble)
  /-- 8XY6, shift VX right by one; Y is kept and ignored (R139, R78). -/
  | shr (x y : Nibble)
  /-- 8XY7, `VY - VX`, VF = not borrow (R140). -/
  | subn (x y : Nibble)
  /-- 8XYE, shift VX left by one; Y is kept and ignored (R141, R78). -/
  | shl (x y : Nibble)
  /-- 9XY0, skip if `VX ≠ VY` (R124). -/
  | sneReg (x y : Nibble)
  /-- ANNN, load the index register (R150). -/
  | ldI (nnn : Addr12)
  /-- BNNN, jump to `NNN + V0` (R113). -/
  | jpV0 (nnn : Addr12)
  /-- CXNN, masked random byte (R144). -/
  | rnd (x : Nibble) (nn : Byte)
  /-- DXYN, draw an N-row sprite by XOR, VF = collision (R162). -/
  | drw (x y n : Nibble)
  /-- EX9E, skip if key VX is pressed (R171). -/
  | skp (x : Nibble)
  /-- EXA1, skip if key VX is not pressed (R172). -/
  | sknp (x : Nibble)
  /-- FX07, read the delay timer (R181). -/
  | ldVxDt (x : Nibble)
  /-- FX0A, wait for a key press (R173). -/
  | ldVxK (x : Nibble)
  /-- FX15, set the delay timer (R182). -/
  | ldDtVx (x : Nibble)
  /-- FX18, set the sound timer (R183). -/
  | ldStVx (x : Nibble)
  /-- FX1E, add VX to the index register (R151). -/
  | addI (x : Nibble)
  /-- FX29, point the index register at a font glyph (R152). -/
  | ldF (x : Nibble)
  /-- FX33, store the three decimal digits of VX (R153). -/
  | ldB (x : Nibble)
  /-- FX55, store V0 to VX (R154). -/
  | stRegs (x : Nibble)
  /-- FX65, load V0 to VX (R155). -/
  | ldRegs (x : Nibble)
  deriving DecidableEq, Repr

/-- The six encoding formats (R73). -/
inductive Format where
  | fixed | nnn | xnn | xy | xyn | x
  deriving DecidableEq, Repr

/-- The spec's identifier of an instruction (R76 column `id`, R82). -/
def Instr.mnemonic : Instr → String
  | .cls => "CLS"
  | .ret => "RET"
  | .jp _ => "JP"
  | .call _ => "CALL"
  | .seImm _ _ => "SE_IMM"
  | .sneImm _ _ => "SNE_IMM"
  | .seReg _ _ => "SE_REG"
  | .ldImm _ _ => "LD_IMM"
  | .addImm _ _ => "ADD_IMM"
  | .ldReg _ _ => "LD_REG"
  | .or _ _ => "OR"
  | .and _ _ => "AND"
  | .xor _ _ => "XOR"
  | .addReg _ _ => "ADD_REG"
  | .sub _ _ => "SUB"
  | .shr _ _ => "SHR"
  | .subn _ _ => "SUBN"
  | .shl _ _ => "SHL"
  | .sneReg _ _ => "SNE_REG"
  | .ldI _ => "LD_I"
  | .jpV0 _ => "JP_V0"
  | .rnd _ _ => "RND"
  | .drw _ _ _ => "DRW"
  | .skp _ => "SKP"
  | .sknp _ => "SKNP"
  | .ldVxDt _ => "LD_VX_DT"
  | .ldVxK _ => "LD_VX_K"
  | .ldDtVx _ => "LD_DT_VX"
  | .ldStVx _ => "LD_ST_VX"
  | .addI _ => "ADD_I"
  | .ldF _ => "LD_F"
  | .ldB _ => "LD_B"
  | .stRegs _ => "ST_REGS"
  | .ldRegs _ => "LD_REGS"

/-- The encoding format of an instruction (R73). -/
def Instr.format : Instr → Format
  | .cls => .fixed
  | .ret => .fixed
  | .jp _ => .nnn
  | .call _ => .nnn
  | .seImm _ _ => .xnn
  | .sneImm _ _ => .xnn
  | .seReg _ _ => .xy
  | .ldImm _ _ => .xnn
  | .addImm _ _ => .xnn
  | .ldReg _ _ => .xy
  | .or _ _ => .xy
  | .and _ _ => .xy
  | .xor _ _ => .xy
  | .addReg _ _ => .xy
  | .sub _ _ => .xy
  | .shr _ _ => .xy
  | .subn _ _ => .xy
  | .shl _ _ => .xy
  | .sneReg _ _ => .xy
  | .ldI _ => .nnn
  | .jpV0 _ => .nnn
  | .rnd _ _ => .xnn
  | .drw _ _ _ => .xyn
  | .skp _ => .x
  | .sknp _ => .x
  | .ldVxDt _ => .x
  | .ldVxK _ => .x
  | .ldDtVx _ => .x
  | .ldStVx _ => .x
  | .addI _ => .x
  | .ldF _ => .x
  | .ldB _ => .x
  | .stRegs _ => .x
  | .ldRegs _ => .x

end Sys2Proof
end

