-- ==== Sys2Proof/WellFormed.lean ====
section
/-! DEFINITION. The checks on what the outside hands the machine that the types do not already make: an instruction's
operands are bit vectors of their field's width (R72), every register may be named by every instruction (R22), so every
`Instr` is well formed for the machine. What remains is the assembler's spelling (R82) and the size of an image (R101). -/

namespace Sys2Proof

/-- The instruction is the one the assembly spelling of R82 stands for: `SHR Vx` and `SHL Vx` assemble with `Y = 0`. The
other fifteen encodings of each decode and run all the same (R78), so no meaning asks for this check. -/
def Instr.assembled : Instr → Bool
  | .shr _ y => y == 0
  | .shl _ y => y == 0
  | _ => true

/-- A program image fits the window 0x200 to 0xFFF (R101, R198). -/
def imageFits (bytes : List Byte) : Bool := decide (bytes.length ≤ Config.progMax)

end Sys2Proof
end

