-- ==== Sys2Proof/Decode.lean ====
section
/-! DEFINITION. Decoding (R70 to R80) and encoding (R72, R73, R76). The decoder follows the family dispatch of R75; the
encoder lays the fields out by format; `opcodeRows` is the mask and match table of R76 itself. -/

namespace Sys2Proof

/-- Why bytes are no instruction. -/
inductive DecodeError where
  /-- The opcode matches no row of R76: a decode failure (R80). -/
  | decodeFailure (opcode : Word)
  /-- Fewer than the two bytes of an instruction (R70). -/
  | truncated
  deriving DecidableEq, Repr

/-! ### Fields (R72) -/

/-- The family selector `OP`, bits 15:12 (R72). -/
def fieldOp (w : Word) : Nibble := w.extractLsb' 12 4

/-- The register number `X`, bits 11:8 (R72). -/
def fieldX (w : Word) : Nibble := w.extractLsb' 8 4

/-- The register number `Y`, bits 7:4 (R72). -/
def fieldY (w : Word) : Nibble := w.extractLsb' 4 4

/-- The 4-bit immediate or function selector `N`, bits 3:0 (R72). -/
def fieldN (w : Word) : Nibble := w.extractLsb' 0 4

/-- The 8-bit immediate or function selector `NN`, bits 7:0 (R72). -/
def fieldNN (w : Word) : Byte := w.extractLsb' 0 8

/-- The 12-bit address `NNN`, bits 11:0 (R72). -/
def fieldNNN (w : Word) : Addr12 := w.extractLsb' 0 12

/-! ### Decoding one opcode (R75) -/

/-- Family 0: the whole 16 bits are compared (R75, R79). -/
def decodeFamily0 (w : Word) : Except DecodeError Instr :=
  if w = 0x00E0#16 then .ok .cls
  else if w = 0x00EE#16 then .ok .ret
  else .error (.decodeFailure w)

/-- Family 5: the low nibble must be 0 (R75, R79). -/
def decodeFamily5 (w : Word) : Except DecodeError Instr :=
  if fieldN w = 0x0#4 then .ok (.seReg (fieldX w) (fieldY w)) else .error (.decodeFailure w)

/-- Family 8: the low nibble selects the operation (R75). -/
def decodeFamily8 (w : Word) : Except DecodeError Instr :=
  match (fieldN w).toNat with
  | 0x0 => .ok (.ldReg (fieldX w) (fieldY w))
  | 0x1 => .ok (.or (fieldX w) (fieldY w))
  | 0x2 => .ok (.and (fieldX w) (fieldY w))
  | 0x3 => .ok (.xor (fieldX w) (fieldY w))
  | 0x4 => .ok (.addReg (fieldX w) (fieldY w))
  | 0x5 => .ok (.sub (fieldX w) (fieldY w))
  | 0x6 => .ok (.shr (fieldX w) (fieldY w))
  | 0x7 => .ok (.subn (fieldX w) (fieldY w))
  | 0xE => .ok (.shl (fieldX w) (fieldY w))
  | _ => .error (.decodeFailure w)

/-- Family 9: the low nibble must be 0 (R75, R79). -/
def decodeFamily9 (w : Word) : Except DecodeError Instr :=
  if fieldN w = 0x0#4 then .ok (.sneReg (fieldX w) (fieldY w)) else .error (.decodeFailure w)

/-- Family E: the low byte selects between two instructions (R75). -/
def decodeFamilyE (w : Word) : Except DecodeError Instr :=
  if fieldNN w = 0x9E#8 then .ok (.skp (fieldX w))
  else if fieldNN w = 0xA1#8 then .ok (.sknp (fieldX w))
  else .error (.decodeFailure w)

/-- Family F: the low byte selects among nine instructions (R75). -/
def decodeFamilyF (w : Word) : Except DecodeError Instr :=
  match (fieldNN w).toNat with
  | 0x07 => .ok (.ldVxDt (fieldX w))
  | 0x0A => .ok (.ldVxK (fieldX w))
  | 0x15 => .ok (.ldDtVx (fieldX w))
  | 0x18 => .ok (.ldStVx (fieldX w))
  | 0x1E => .ok (.addI (fieldX w))
  | 0x29 => .ok (.ldF (fieldX w))
  | 0x33 => .ok (.ldB (fieldX w))
  | 0x55 => .ok (.stRegs (fieldX w))
  | 0x65 => .ok (.ldRegs (fieldX w))
  | _ => .error (.decodeFailure w)

/-- Decoding an opcode: "the top nibble (bits 12–15) selects one of 16 families" (R75). It depends on the 16 bits alone
(R70). -/
def decode (w : Word) : Except DecodeError Instr :=
  match (fieldOp w).toNat with
  | 0x0 => decodeFamily0 w
  | 0x1 => .ok (.jp (fieldNNN w))
  | 0x2 => .ok (.call (fieldNNN w))
  | 0x3 => .ok (.seImm (fieldX w) (fieldNN w))
  | 0x4 => .ok (.sneImm (fieldX w) (fieldNN w))
  | 0x5 => decodeFamily5 w
  | 0x6 => .ok (.ldImm (fieldX w) (fieldNN w))
  | 0x7 => .ok (.addImm (fieldX w) (fieldNN w))
  | 0x8 => decodeFamily8 w
  | 0x9 => decodeFamily9 w
  | 0xA => .ok (.ldI (fieldNNN w))
  | 0xB => .ok (.jpV0 (fieldNNN w))
  | 0xC => .ok (.rnd (fieldX w) (fieldNN w))
  | 0xD => .ok (.drw (fieldX w) (fieldY w) (fieldN w))
  | 0xE => decodeFamilyE w
  | _ => decodeFamilyF w

/-! ### Encoding (R73, R76) -/

/-- Format NNN (R73). -/
def encodeNNN (op : Nibble) (nnn : Addr12) : Word := op ++ nnn

/-- Format XNN (R73). -/
def encodeXNN (op x : Nibble) (nn : Byte) : Word := op ++ x ++ nn

/-- Formats XY and XYN (R73): the last nibble is the function selector or `N`. -/
def encodeXYN (op x y n : Nibble) : Word := op ++ x ++ y ++ n

/-- The opcode of an instruction, written from the rows of R76 and the formats of R73. -/
def encode : Instr → Word
  | .cls => 0x00E0#16
  | .ret => 0x00EE#16
  | .jp nnn => encodeNNN 0x1#4 nnn
  | .call nnn => encodeNNN 0x2#4 nnn
  | .seImm x nn => encodeXNN 0x3#4 x nn
  | .sneImm x nn => encodeXNN 0x4#4 x nn
  | .seReg x y => encodeXYN 0x5#4 x y 0x0#4
  | .ldImm x nn => encodeXNN 0x6#4 x nn
  | .addImm x nn => encodeXNN 0x7#4 x nn
  | .ldReg x y => encodeXYN 0x8#4 x y 0x0#4
  | .or x y => encodeXYN 0x8#4 x y 0x1#4
  | .and x y => encodeXYN 0x8#4 x y 0x2#4
  | .xor x y => encodeXYN 0x8#4 x y 0x3#4
  | .addReg x y => encodeXYN 0x8#4 x y 0x4#4
  | .sub x y => encodeXYN 0x8#4 x y 0x5#4
  | .shr x y => encodeXYN 0x8#4 x y 0x6#4
  | .subn x y => encodeXYN 0x8#4 x y 0x7#4
  | .shl x y => encodeXYN 0x8#4 x y 0xE#4
  | .sneReg x y => encodeXYN 0x9#4 x y 0x0#4
  | .ldI nnn => encodeNNN 0xA#4 nnn
  | .jpV0 nnn => encodeNNN 0xB#4 nnn
  | .rnd x nn => encodeXNN 0xC#4 x nn
  | .drw x y n => encodeXYN 0xD#4 x y n
  | .skp x => encodeXNN 0xE#4 x 0x9E#8
  | .sknp x => encodeXNN 0xE#4 x 0xA1#8
  | .ldVxDt x => encodeXNN 0xF#4 x 0x07#8
  | .ldVxK x => encodeXNN 0xF#4 x 0x0A#8
  | .ldDtVx x => encodeXNN 0xF#4 x 0x15#8
  | .ldStVx x => encodeXNN 0xF#4 x 0x18#8
  | .addI x => encodeXNN 0xF#4 x 0x1E#8
  | .ldF x => encodeXNN 0xF#4 x 0x29#8
  | .ldB x => encodeXNN 0xF#4 x 0x33#8
  | .stRegs x => encodeXNN 0xF#4 x 0x55#8
  | .ldRegs x => encodeXNN 0xF#4 x 0x65#8

/-! ### The opcode table (R76) -/

/-- A row of R76: an opcode `w` matches it when `w & mask = value`. -/
structure OpcodeRow where
  id : String
  mask : Word
  value : Word
  deriving DecidableEq, Repr

/-- `opcode & mask = match` (R75). -/
def OpcodeRow.fits (r : OpcodeRow) (w : Word) : Bool := w &&& r.mask == r.value

/-- Rows 1 to 19 of R76: families 0 to 9. -/
def opcodeRowsLow : List OpcodeRow := [
  ⟨"CLS", 0xFFFF#16, 0x00E0#16⟩,
  ⟨"RET", 0xFFFF#16, 0x00EE#16⟩,
  ⟨"JP", 0xF000#16, 0x1000#16⟩,
  ⟨"CALL", 0xF000#16, 0x2000#16⟩,
  ⟨"SE_IMM", 0xF000#16, 0x3000#16⟩,
  ⟨"SNE_IMM", 0xF000#16, 0x4000#16⟩,
  ⟨"SE_REG", 0xF00F#16, 0x5000#16⟩,
  ⟨"LD_IMM", 0xF000#16, 0x6000#16⟩,
  ⟨"ADD_IMM", 0xF000#16, 0x7000#16⟩,
  ⟨"LD_REG", 0xF00F#16, 0x8000#16⟩,
  ⟨"OR", 0xF00F#16, 0x8001#16⟩,
  ⟨"AND", 0xF00F#16, 0x8002#16⟩,
  ⟨"XOR", 0xF00F#16, 0x8003#16⟩,
  ⟨"ADD_REG", 0xF00F#16, 0x8004#16⟩,
  ⟨"SUB", 0xF00F#16, 0x8005#16⟩,
  ⟨"SHR", 0xF00F#16, 0x8006#16⟩,
  ⟨"SUBN", 0xF00F#16, 0x8007#16⟩,
  ⟨"SHL", 0xF00F#16, 0x800E#16⟩,
  ⟨"SNE_REG", 0xF00F#16, 0x9000#16⟩]

/-- Rows 20 to 34 of R76: families A to F. -/
def opcodeRowsHigh : List OpcodeRow := [
  ⟨"LD_I", 0xF000#16, 0xA000#16⟩,
  ⟨"JP_V0", 0xF000#16, 0xB000#16⟩,
  ⟨"RND", 0xF000#16, 0xC000#16⟩,
  ⟨"DRW", 0xF000#16, 0xD000#16⟩,
  ⟨"SKP", 0xF0FF#16, 0xE09E#16⟩,
  ⟨"SKNP", 0xF0FF#16, 0xE0A1#16⟩,
  ⟨"LD_VX_DT", 0xF0FF#16, 0xF007#16⟩,
  ⟨"LD_VX_K", 0xF0FF#16, 0xF00A#16⟩,
  ⟨"LD_DT_VX", 0xF0FF#16, 0xF015#16⟩,
  ⟨"LD_ST_VX", 0xF0FF#16, 0xF018#16⟩,
  ⟨"ADD_I", 0xF0FF#16, 0xF01E#16⟩,
  ⟨"LD_F", 0xF0FF#16, 0xF029#16⟩,
  ⟨"LD_B", 0xF0FF#16, 0xF033#16⟩,
  ⟨"ST_REGS", 0xF0FF#16, 0xF055#16⟩,
  ⟨"LD_REGS", 0xF0FF#16, 0xF065#16⟩]

/-- The complete opcode list (R76): 34 rows. -/
def opcodeRows : List OpcodeRow := opcodeRowsLow ++ opcodeRowsHigh

/-! ### Bytes and table words -/

/-- An opcode of its two bytes, the first the high one (R52). -/
def wordOfBytes (hi lo : Byte) : Word := hi ++ lo

/-- The byte at the lower address: bits 15:8 (R52). -/
def highByte (w : Word) : Byte := w.extractLsb' 8 8

/-- The byte at the higher address: bits 7:0 (R52). -/
def lowByte (w : Word) : Byte := w.extractLsb' 0 8

/-- Decoding from bytes: two of them, big-endian (R52, R70), and the rest of the list. Total on any bytes. -/
def decodeBytes : List Byte → Except DecodeError (Instr × List Byte)
  | hi :: lo :: rest =>
    match decode (wordOfBytes hi lo) with
    | .ok i => .ok (i, rest)
    | .error e => .error e
  | _ => .error .truncated

/-- The opcode whose bits the opcode table numbers as `w`: one 16-bit word, every bit from `nbits` up zero. -/
def tableWord (nbits w : Nat) : Word := BitVec.ofNat 16 (w % 2 ^ nbits)

/-- The instruction the decoder reads from a row's word, laid out as memory holds it (R52); `none` where it refuses. -/
def decodeTableWord (nbits w : Nat) : Option Instr :=
  match decodeBytes [highByte (tableWord nbits w), lowByte (tableWord nbits w)] with
  | .ok (i, _) => some i
  | .error _ => none

end Sys2Proof
end

