-- ==== Sys2Proof/Machine/State.lean ====
section
/-! DEFINITION. The state (R20 to R34), the host operations (R100), the faults (R190), the refusals, and the state after
reset (R38, R220). State is plain data; the last five fields are the model's own (entries 1 to 4 and 32). -/

namespace Sys2Proof.Machine

/-- Memory as address and byte pairs, addresses strictly rising, no pair equal to what an unlisted address reads as
(`Memory.blank`, Machine/Ops.lean); addresses below 4096 (R21). -/
abbrev Memory := List Host.Cell

/-- The display buffer: 32 rows of 64 cells, `DISP[y][x]` (R31, R160). -/
abbrev Display := Vector (Vector Bool 64) 32

/-- The execution mode (R33). -/
inductive Mode where
  | running
  | waitingForKey
  deriving DecidableEq, Repr

/-- An operation the host invokes (R100); each is one atomic event (R107, D28). A key index is 4 bits, so an index
outside 0 to 15 cannot be written (R104). -/
inductive HostOp where
  /-- `reset()` (R102). -/
  | reset
  /-- `load_program(bytes)` (R101). -/
  | loadProgram (bytes : List Byte)
  /-- `tick()` (R103). -/
  | tick
  /-- `key_press(k)` (R174, R175). -/
  | keyPress (k : Nibble)
  /-- `key_release(k)` (R176). -/
  | keyRelease (k : Nibble)
  /-- `display()` (R105). -/
  | display
  /-- `on_sound(callback)` (R106). -/
  | onSound
  deriving DecidableEq, Repr

/-- The faults of R190, in the order of its codes 1 to 7. Each leaves the state unchanged (R197). A tick's fault is the
outcome of the step and ends the run (R109, D29; entry 19); code 7 is reported in `State.loadFault` and the run goes on
(R107; entry 32). -/
inductive Fault where
  /-- Code 1. Raised by decode in any tick whose opcode matches no row of R76 (R191). Safe: the source states it. -/
  | opcodeFault (opcode pc : Word)
  /-- Code 2. Raised by the fetch of any tick with `PC > 0xFFE` (R192). Safe: the source states it. -/
  | outOfBoundsFetch (pc : Word)
  /-- Code 3. Raised by DXYN (N > 0), FX33, FX55, FX65 when the highest address is above 0xFFF (R193, D7). Safe: more
  faults than a machine that would go on. -/
  | outOfBoundsData (addr : Nat)
  /-- Code 4. Raised by 2NNN with 16 return addresses live (R194). Safe: the source states it. -/
  | stackOverflow (pc : Word)
  /-- Code 5. Raised by 00EE on an empty stack (R195). Safe: the source states it. -/
  | stackUnderflow (pc : Word)
  /-- Code 6. Raised by EX9E and EXA1 when `VX > 15` (R196, D10). Safe: more faults than a machine that would go on. -/
  | keyIndexFault (v : Byte)
  /-- Code 7. Reported by `load_program` when the image is larger than 3584 bytes (R198; entry 32). Safe: the source
  states it. -/
  | programTooLarge (requestedLen capacity : Nat)
  deriving DecidableEq, Repr

/-- What the model does not define. -/
inductive Refusal where
  /-- An instruction without a meaning yet; no arm of `exec` answers it. Safe: nothing is claimed of it. -/
  | notModelled (mnemonic : String)
  /-- `load_program` after a first load, a tick or a key event: outside the host's contract (R101, D20, U8; entry 4).
  Safe: nothing is claimed of such a run. -/
  | loadOutsideContract
  deriving DecidableEq, Repr

/-- The state of the machine (R20) and, after it, the model's own bookkeeping of the host. -/
structure State where
  /-- `MEM` (R21). -/
  mem : Memory
  /-- `V0` to `VF` (R22). -/
  v : Vector Byte 16
  /-- `I` (R25). -/
  i : Word
  /-- `PC` (R26): between ticks the address of the next instruction, in a tick that of the executing one. -/
  pc : Word
  /-- `STACK[0..15]` (R27). -/
  stack : Vector Word 16
  /-- `SP + 1`, the number of live return addresses, 0 to 16 (R28; entry 6). -/
  depth : Fin 17
  /-- `DT` (R29). -/
  dt : Byte
  /-- `ST` (R30). -/
  st : Byte
  /-- `DISP` (R31). -/
  disp : Display
  /-- `KEY[0..15]`, true when pressed (R32). -/
  key : Vector Bool 16
  /-- `MODE` (R33). -/
  mode : Mode
  /-- `WAIT_REG` (R34). -/
  waitReg : Nibble
  /-- The model's own: how many random bytes have been drawn (entry 2). -/
  draws : Nat
  /-- The model's own: the `sound` output of R96 in the step that produced this state (entry 3). -/
  sound : Bool
  /-- The model's own: the host's next operations, first first; when empty the host ticks (entry 1). -/
  script : List HostOp
  /-- The model's own: `load_program` is still within its contract (entry 4). -/
  loadOpen : Bool
  /-- The model's own: the fault `load_program` returned in the step that produced this state (R101, R190; entry 32). -/
  loadFault : Option Fault
  deriving DecidableEq, Repr

/-- What a step or a meaning answers. -/
abbrev Result := Host.Outcome State Fault Refusal

/-- The state after `reset` (R38, R220). Memory lists nothing: an unlisted address reads as its reset content. -/
def State.reset : State where
  mem := []
  v := Vector.replicate 16 0x00#8
  i := 0x0000#16
  pc := 0x0200#16
  stack := Vector.replicate 16 0x0000#16
  depth := 0
  dt := 0x00#8
  st := 0x00#8
  disp := Vector.replicate 32 (Vector.replicate 64 false)
  key := Vector.replicate 16 false
  mode := .running
  waitReg := 0x0#4
  draws := 0
  sound := false
  script := []
  loadOpen := true
  loadFault := none

end Sys2Proof.Machine
end

