-- ==== Sys2Proof/Machine/Params.lean ====
section
/-! DEFINITION. The implementation parameters of R9 at the values the spec takes: the font (R24), the return advance
(R114) and the edge policy (R163). They stand under Machine/ because a test could show one of them wrong. -/

namespace Sys2Proof.Machine

/-- Glyphs 0 to 7 of the default font (R24). PRESUMED (entry 5): from general knowledge, not in the source (D15, G1). -/
def fontLow : List Byte :=
  [0xF0#8, 0x90#8, 0x90#8, 0x90#8, 0xF0#8] ++ [0x20#8, 0x60#8, 0x20#8, 0x20#8, 0x70#8] ++
  [0xF0#8, 0x10#8, 0xF0#8, 0x80#8, 0xF0#8] ++ [0xF0#8, 0x10#8, 0xF0#8, 0x10#8, 0xF0#8] ++
  [0x90#8, 0x90#8, 0xF0#8, 0x10#8, 0x10#8] ++ [0xF0#8, 0x80#8, 0xF0#8, 0x10#8, 0xF0#8] ++
  [0xF0#8, 0x80#8, 0xF0#8, 0x90#8, 0xF0#8] ++ [0xF0#8, 0x10#8, 0x20#8, 0x40#8, 0x40#8]

/-- Glyphs 8 to F of the default font (R24). PRESUMED (entry 5). -/
def fontHigh : List Byte :=
  [0xF0#8, 0x90#8, 0xF0#8, 0x90#8, 0xF0#8] ++ [0xF0#8, 0x90#8, 0xF0#8, 0x10#8, 0xF0#8] ++
  [0xF0#8, 0x90#8, 0xF0#8, 0x90#8, 0x90#8] ++ [0xE0#8, 0x90#8, 0xE0#8, 0x90#8, 0xE0#8] ++
  [0xF0#8, 0x80#8, 0x80#8, 0x80#8, 0xF0#8] ++ [0xE0#8, 0x90#8, 0x90#8, 0x90#8, 0xE0#8] ++
  [0xF0#8, 0x80#8, 0xF0#8, 0x80#8, 0xF0#8] ++ [0xF0#8, 0x80#8, 0xF0#8, 0x80#8, 0x80#8]

/-- `FONT[0..79]`: glyph `g` is the five bytes from `5 * g` (R24). -/
def font : List Byte := fontLow ++ fontHigh

/-- `RET_ADVANCE` (R9, R114): what 00EE adds to the popped address. The spec's decision D2 (entry 7). -/
def retAdvance : Word := 2

/-- `DRAW_EDGE_POLICY` (R9, R163). The spec's decision D5 (entry 8). -/
def drawEdgePolicy : Config.EdgePolicy := .wrap

end Sys2Proof.Machine
end

