-- ==== Sys2Proof/Machine/Ops.lean ====
section
/-! DEFINITION. The named operations over memory and the state: reading and writing bytes, one update per state element,
registers, the program counter, the call stack, the keypad, and raising a fault. -/

namespace Sys2Proof.Machine

/-! ### Memory (R21, R50 to R57) -/

/-- What an address nobody has written reads as: its reset content (R20, R38): the font from address 0, zero elsewhere. -/
def Memory.blank (a : Nat) : Byte := font.getD a 0x00#8

/-- `MemRead(a, 1)` (R12): "a read returns the last byte written there" (R57). -/
def Memory.read : Memory → Nat → Byte
  | [], a => Memory.blank a
  | (b, x) :: rest, a => if a = b then x else Memory.read rest a

/-- The canonical form of one cell put before a tail that starts above it: no cell for the blank value. -/
def Memory.cons (a : Nat) (x : Byte) (rest : Memory) : Memory :=
  if x = Memory.blank a then rest else (a, x) :: rest

/-- `MemWrite(a, 1, x)` (R12), keeping the canonical form. -/
def Memory.write : Memory → Nat → Byte → Memory
  | [], a, x => Memory.cons a x []
  | (b, y) :: rest, a, x =>
    if a < b then Memory.cons a x ((b, y) :: rest)
    else if a = b then Memory.cons a x rest
    else (b, y) :: Memory.write rest a x

/-- Bytes at rising addresses from `a`, the first at `a` (R52). -/
def Memory.writeBytes (m : Memory) (a : Nat) : List Byte → Memory
  | [] => m
  | x :: xs => Memory.writeBytes (m.write a x) (a + 1) xs

/-- The `n` bytes from `a`, in address order. -/
def Memory.readBytes (m : Memory) (a n : Nat) : List Byte := (List.range n).map fun k => m.read (a + k)

/-- The canonical form, from address `lo` on: addresses strictly rising, inside the address space (R21), no cell that
holds its blank value. -/
def Memory.wfFrom : Nat → Memory → Bool
  | _, [] => true
  | lo, (a, x) :: rest =>
    decide (lo ≤ a) && decide (a < Config.memSize) && x != Memory.blank a && Memory.wfFrom (a + 1) rest

/-- Memory is in its one canonical form. -/
def Memory.wf (m : Memory) : Bool := Memory.wfFrom 0 m

/-! ### One update per state element -/

/-- Write `MEM`. -/
def State.setMem (s : State) (m : Memory) : State := { s with mem := m }

/-- Write `V[r]` (R22: no register is hardwired). -/
def State.setReg (s : State) (r : Nibble) (x : Byte) : State := { s with v := s.v.set r.toNat x r.isLt }

/-- Write `I` (R25). -/
def State.setI (s : State) (w : Word) : State := { s with i := w }

/-- Write `PC` (R26: not aligned, masked or checked when written, R110). -/
def State.setPc (s : State) (w : Word) : State := { s with pc := w }

/-- Write `STACK` and the depth `SP + 1` (R27, R28). -/
def State.setStack (s : State) (st : Vector Word 16) (d : Fin 17) : State := { s with stack := st, depth := d }

/-- Write `DT` (R29). -/
def State.setDt (s : State) (x : Byte) : State := { s with dt := x }

/-- Write `ST` (R30). -/
def State.setSt (s : State) (x : Byte) : State := { s with st := x }

/-- Write `DISP` (R31). -/
def State.setDisp (s : State) (d : Display) : State := { s with disp := d }

/-- Write `KEY[k]` (R32). -/
def State.setKey (s : State) (k : Nibble) (down : Bool) : State := { s with key := s.key.set k.toNat down k.isLt }

/-- Write `MODE` (R33). -/
def State.setMode (s : State) (m : Mode) : State := { s with mode := m }

/-- Write `WAIT_REG` (R34). -/
def State.setWaitReg (s : State) (r : Nibble) : State := { s with waitReg := r }

/-- Count one more random byte as drawn (entry 2). -/
def State.setDraws (s : State) (n : Nat) : State := { s with draws := n }

/-- Set the `sound` output of the step (entry 3). -/
def State.setSound (s : State) (b : Bool) : State := { s with sound := b }

/-- Set the host's remaining operations (entry 1). -/
def State.setScript (s : State) (l : List HostOp) : State := { s with script := l }

/-- Open or close the loading window (entry 4). -/
def State.setLoadOpen (s : State) (b : Bool) : State := { s with loadOpen := b }

/-- Report what `load_program` returned in this step (entry 32). -/
def State.setLoadFault (s : State) (f : Option Fault) : State := { s with loadFault := f }

/-! ### Registers, keys, program counter -/

/-- `V[r]` (R22). -/
def State.reg (s : State) (r : Nibble) : Byte := s.v[r.toNat]'r.isLt

/-- `V0` to `Vx`, `x + 1` bytes in register order (R22, R154). -/
def State.regsUpTo (s : State) (x : Nibble) : List Byte :=
  (List.range (x.toNat + 1)).map fun k => s.reg (BitVec.ofNat 4 k)

/-- `V[k] <- MEM[base + k]` for the `n` registers from V0 (R155). -/
def State.loadRegs (s : State) (base : Nat) : Nat → State
  | 0 => s
  | n + 1 => (State.loadRegs s base n).setReg (BitVec.ofNat 4 n) (s.mem.read (base + n))

/-- `KEY[k]` (R32). -/
def State.keyDown (s : State) (k : Nibble) : Bool := s.key[k.toNat]'k.isLt

/-- `PC <- PC + 2`: on to the next instruction (R26, R70). -/
def State.advance (s : State) : State := s.setPc (s.pc + 2)

/-- `PC <- PC + 4` if `c`, else `PC <- PC + 2` (R120). -/
def State.skipIf (s : State) (c : Bool) : State := s.setPc (if c then s.pc + 4 else s.pc + 2)

/-! ### Call stack (R27, R28) -/

/-- `SP`, −1 when the stack is empty (R28). -/
def State.sp (s : State) : Int := (s.depth.val : Int) - 1

/-- `SP <- SP + 1; STACK[SP] <- w` (R112); `none` when 16 addresses are live. -/
def State.push (s : State) (w : Word) : Option State :=
  if h : s.depth.val < 16 then
    some (s.setStack (s.stack.set s.depth.val w h) ⟨s.depth.val + 1, Nat.succ_lt_succ h⟩)
  else none

/-- `STACK[SP]` and the state after `SP <- SP − 1` (R114; the slot keeps its value, R27); `none` when empty. -/
def State.pop (s : State) : Option (Word × State) :=
  if h : 0 < s.depth.val then
    have hb : s.depth.val - 1 < 16 := Nat.sub_one_lt_of_le h (Nat.le_of_lt_succ s.depth.isLt)
    some (s.stack[s.depth.val - 1], s.setStack s.stack ⟨s.depth.val - 1, Nat.lt_succ_of_lt hb⟩)
  else none

/-! ### Faults (R97, R190, R197, R202) -/

/-- Taking an exception, the one way there is: "There is no trap mechanism inside the machine: a fault does not save
state, does not change mode, does not switch a stack and does not transfer control to a handler address" (R202). The
operation answers the fault and no state; the state stays what it was (R197). "There is no return-from-trap instruction"
(R203), so no return stands beside it. -/
def raise (f : Fault) : Result := .fault f

/-- The spec's numbering of the faults (R190, D9). -/
def Fault.code : Fault → Nat
  | .opcodeFault _ _ => 1
  | .outOfBoundsFetch _ => 2
  | .outOfBoundsData _ => 3
  | .stackOverflow _ => 4
  | .stackUnderflow _ => 5
  | .keyIndexFault _ => 6
  | .programTooLarge _ _ => 7

end Sys2Proof.Machine
end

