-- ==== Sys2Proof/Machine/Operands.lean ====
section
/-! DEFINITION. Operand forms: zero-extended immediates (R74), the one addressing mode with its range check (R55, R156),
key indices (R171), font glyphs (R152) and decimal digits (R153). -/

namespace Sys2Proof.Machine

/-- `zext_16(NNN)` (R74). -/
def zext12 (nnn : Addr12) : Word := nnn.setWidth 16

/-- `zext_16` of a byte (R74). -/
def zext8 (x : Byte) : Word := x.setWidth 16

/-- `zext_8` of a key index (R175). -/
def zext4 (k : Nibble) : Byte := k.setWidth 8

/-- The effective address `EA = I + k`, computed without wrap (R156). -/
def State.ea (s : State) (k : Nat) : Nat := s.i.toNat + k

/-- The range check of R55: an instruction whose highest address is `I + last` faults before any access when that address
is above 0xFFF, and otherwise runs `body`. The spec's decision D7 (entry 9). -/
def State.inRange (s : State) (last : Nat) (body : Result) : Result :=
  if s.ea last > 0xFFF then raise (.outOfBoundsData (s.ea last)) else body

/-- The check of R171: an index above 15 faults, and otherwise `body` runs on the key it names. The spec's decision D10
(entry 10). -/
def State.withKey (s : State) (x : Nibble) (body : Nibble → Result) : Result :=
  if (s.reg x).toNat > 15 then raise (.keyIndexFault (s.reg x)) else body ((s.reg x).setWidth 4)

/-- The address of the glyph a byte names: the whole byte times 5 (R152). -/
def glyphAddr (x : Byte) : Word := BitVec.ofNat 16 (x.toNat * 5)

/-- The hundreds, tens and ones digits, each a binary byte (R153). -/
def decimalDigits (x : Byte) : List Byte :=
  [BitVec.ofNat 8 (x.toNat / 100), BitVec.ofNat 8 (x.toNat / 10 % 10), BitVec.ofNat 8 (x.toNat % 10)]

end Sys2Proof.Machine
end

