-- ==== Sys2Proof/Machine/Flags.lean ====
section
/-! DEFINITION. The flag computations of R23, each on exact naturals, and the write order of a flag-writing instruction
(R14, R142). The collision flag of DXYN comes out of the drawing itself (Machine/Display.lean). -/

namespace Sys2Proof.Machine

/-- "The flag value is always exactly 0x00 or 0x01" (R130). -/
def flagByte (b : Bool) : Byte := if b then 0x01#8 else 0x00#8

/-- 8XY4: 1 if `a + b > 255` (R137). -/
def carry (a b : Byte) : Bool := decide (a.toNat + b.toNat > 255)

/-- 8XY5 and 8XY7: 1 if `a >= b`, no borrow in `a − b` (R138, R140). -/
def notBorrow (a b : Byte) : Bool := decide (a.toNat ≥ b.toNat)

/-- 8XY6: the bit shifted out at the low end (R139). -/
def shiftedOutLow (a : Byte) : Bool := a.getLsbD 0

/-- 8XYE: the bit shifted out at the high end (R141). -/
def shiftedOutHigh (a : Byte) : Bool := a.getLsbD 7

/-- FX1E: 1 if the exact sum is above 0xFFF (R151). -/
def leavesRange (i : Word) (x : Byte) : Bool := decide (i.toNat + x.toNat > 0xFFF)

/-- VF first, then VX (R14, R142, D4; entry 11): with `x = 0xF` the result replaces the flag. Operands are read by the
caller from the state before. -/
def State.flagThenResult (s : State) (x : Nibble) (flag : Bool) (result : Byte) : State :=
  (s.setReg 0xF#4 (flagByte flag)).setReg x result

end Sys2Proof.Machine
end

