-- ==== Sys2Proof/Machine/Alu.lean ====
section
/-! DEFINITION. Register load, arithmetic, logic, shift and random (43_alu.md): 6XNN, 7XNN, 8XY0 to 8XY7, 8XYE, CXNN.
Arithmetic wraps modulo 256 (R130); each ends with `PC <- PC + 2` and none can fault. -/

namespace Sys2Proof.Machine

/-- 6XNN (R131): "VX = NN; PC += 2". -/
def execLdImm (x : Nibble) (nn : Byte) (s : State) : Result := .next (s.setReg x nn).advance

/-- 7XNN (R132): "VX = VX + NN (wrapping 8-bit); PC += 2"; VF is not written. -/
def execAddImm (x : Nibble) (nn : Byte) (s : State) : Result := .next (s.setReg x (s.reg x + nn)).advance

/-- 8XY0 (R133): "VX = VY; PC += 2". -/
def execLdReg (x y : Nibble) (s : State) : Result := .next (s.setReg x (s.reg y)).advance

/-- 8XY1 (R134); VF is left as it was. -/
def execOr (x y : Nibble) (s : State) : Result := .next (s.setReg x (s.reg x ||| s.reg y)).advance

/-- 8XY2 (R135); VF is left as it was. -/
def execAnd (x y : Nibble) (s : State) : Result := .next (s.setReg x (s.reg x &&& s.reg y)).advance

/-- 8XY3 (R136); VF is left as it was. -/
def execXor (x y : Nibble) (s : State) : Result := .next (s.setReg x (s.reg x ^^^ s.reg y)).advance

/-- 8XY4 (R137): VF is the carry. -/
def execAddReg (x y : Nibble) (s : State) : Result :=
  .next (s.flagThenResult x (carry (s.reg x) (s.reg y)) (s.reg x + s.reg y)).advance

/-- 8XY5 (R138): VF is 1 when no borrow occurred. -/
def execSub (x y : Nibble) (s : State) : Result :=
  .next (s.flagThenResult x (notBorrow (s.reg x) (s.reg y)) (s.reg x - s.reg y)).advance

/-- 8XY6 (R139): VX itself is shifted; the Y field is ignored (R78). -/
def execShr (x _y : Nibble) (s : State) : Result :=
  .next (s.flagThenResult x (shiftedOutLow (s.reg x)) (s.reg x >>> 1)).advance

/-- 8XY7 (R140): `VY − VX`, VF is 1 when no borrow occurred. -/
def execSubn (x y : Nibble) (s : State) : Result :=
  .next (s.flagThenResult x (notBorrow (s.reg y) (s.reg x)) (s.reg y - s.reg x)).advance

/-- 8XYE (R141): VX itself is shifted; the Y field is ignored (R78). -/
def execShl (x _y : Nibble) (s : State) : Result :=
  .next (s.flagThenResult x (shiftedOutHigh (s.reg x)) (s.reg x <<< 1)).advance

/-- CXNN (R144): the byte drawn is the free value of this draw (D14; entry 2), and the draw is consumed. That two
runs at the same draw number draw the same byte is the model's DESIGN CHOICE, open in the spec (entry 33). -/
def execRnd (x : Nibble) (nn : Byte) (s : State) : Result :=
  .next ((s.setReg x (Config.randomByte s.draws &&& nn)).setDraws (s.draws + 1)).advance

end Sys2Proof.Machine
end

