-- ==== Sys2Proof/Machine/Control.lean ====
section
/-! DEFINITION. Control transfer (41_control_transfer.md): 1NNN, 2NNN, BNNN, 00EE. -/

namespace Sys2Proof.Machine

/-- 1NNN (R111): "PC = NNN (no advance)". -/
def execJp (nnn : Addr12) (s : State) : Result := .next (s.setPc (zext12 nnn))

/-- 2NNN (R112): push the address of this call itself, then jump; StackOverflow with 16 addresses live. -/
def execCall (nnn : Addr12) (s : State) : Result :=
  match s.push s.pc with
  | some t => .next (t.setPc (zext12 nnn))
  | none => raise (.stackOverflow s.pc)

/-- BNNN (R113): "PC = NNN + V0", neither wrapped nor masked to 12 bits (D12; entry 12). -/
def execJpV0 (nnn : Addr12) (s : State) : Result := .next (s.setPc (zext12 nnn + zext8 (s.reg 0x0#4)))

/-- 00EE (R114): the popped address plus `RET_ADVANCE` (D2; entry 7); StackUnderflow on an empty stack. -/
def execRet (s : State) : Result :=
  match s.pop with
  | some (w, t) => .next (t.setPc (w + retAdvance))
  | none => raise (.stackUnderflow s.pc)

end Sys2Proof.Machine
end

