-- ==== Sys2Proof/Machine/Display.lean ====
section
/-! DEFINITION. The display (45_display.md): the grid (R160), the sprite XOR-blit with its collision flag (R162) under
either edge policy (R163), 00E0 and DXYN. -/

namespace Sys2Proof.Machine

/-- The cell `(x, y)` = `DISP[y][x]`, column `x`, row `y` (R160; D16, entry 14). -/
def Display.cell (d : Display) (x : Fin 64) (y : Fin 32) : Bool := (d.get y).get x

/-- `DISP[y][x] <- DISP[y][x] ^ 1` (R162). -/
def Display.flip (d : Display) (x : Fin 64) (y : Fin 32) : Display :=
  d.set y ((d.get y).set x (!Display.cell d x y))

/-- The clear display: all 2048 cells 0 (R161). -/
def Display.clear : Display := Vector.replicate 32 (Vector.replicate 64 false)

/-- The cell a sprite bit at column `c` of row `r` falls on, from the start `(x0, y0)` (R162, R163): reduced modulo the
grid under WRAP, none beyond it under CLIP; the sums are taken on naturals. -/
def targetCell (policy : Config.EdgePolicy) (x0 y0 : Byte) (r c : Nat) : Option (Fin 64 × Fin 32) :=
  match policy with
  | .wrap => some (Fin.ofNat 64 (x0.toNat + c), Fin.ofNat 32 (y0.toNat + r))
  | .clip =>
    if x0.toNat + c < 64 ∧ y0.toNat + r < 32 then some (Fin.ofNat 64 (x0.toNat + c), Fin.ofNat 32 (y0.toNat + r))
    else none

/-- One sprite bit (R162): bit 7 is the first column; a 1 toggles its cell, and a cell that was on is a collision. -/
def drawBit (policy : Config.EdgePolicy) (x0 y0 : Byte) (r : Nat) (b : Byte) (a : Display × Bool) (c : Nat) :
    Display × Bool :=
  if b.getLsbD (7 - c) then
    match targetCell policy x0 y0 r c with
    | some (x, y) => (Display.flip a.1 x y, a.2 || Display.cell a.1 x y)
    | none => a
  else a

/-- One sprite row: columns 0 to 7 (R162). -/
def drawRow (policy : Config.EdgePolicy) (x0 y0 : Byte) (r : Nat) (b : Byte) (a : Display × Bool) : Display × Bool :=
  (List.range 8).foldl (drawBit policy x0 y0 r b) a

/-- The sprite's rows from row `r` on, downward (R162). -/
def drawRows (policy : Config.EdgePolicy) (x0 y0 : Byte) : Nat → List Byte → Display × Bool → Display × Bool
  | _, [], a => a
  | r, b :: bs, a => drawRows policy x0 y0 (r + 1) bs (drawRow policy x0 y0 r b a)

/-- The display after the sprite, and whether a cell went from on to off (R162). -/
def drawSprite (policy : Config.EdgePolicy) (x0 y0 : Byte) (sprite : List Byte) (d : Display) : Display × Bool :=
  drawRows policy x0 y0 0 sprite (d, false)

/-- 00E0 (R161): "Clear display buffer to all-zero; PC += 2". -/
def execCls (s : State) : Result := .next (s.setDisp Display.clear).advance

/-- The display and the collision flag of DXYN on this state: `N` bytes from `I` at `(V[X], V[Y])` (R162). -/
def State.sprite (s : State) (x y n : Nibble) : Display × Bool :=
  drawSprite drawEdgePolicy (s.reg x) (s.reg y) (s.mem.readBytes (s.ea 0) n.toNat) s.disp

/-- DXYN past its range check: the cells, then VF (R162). -/
def State.drawn (s : State) (x y n : Nibble) : State :=
  ((s.setDisp (s.sprite x y n).1).setReg 0xF#4 (flagByte (s.sprite x y n).2)).advance

/-- DXYN (R162): with `N = 0` it reads nothing and never faults (D26; entry 15). -/
def execDrw (x y n : Nibble) (s : State) : Result :=
  if n = 0x0#4 then .next (s.drawn x y n) else s.inRange (n.toNat - 1) (.next (s.drawn x y n))

end Sys2Proof.Machine
end

