-- ==== Sys2Proof/Machine/IndexMemory.lean ====
section
/-! DEFINITION. Index register and memory transfers (44_index_memory.md): ANNN, FX1E, FX29, FX33, FX55, FX65. No memory
instruction changes `I` (R156). -/

namespace Sys2Proof.Machine

/-- ANNN (R150): "I = NNN; PC += 2". -/
def execLdI (nnn : Addr12) (s : State) : Result := .next (s.setI (zext12 nnn)).advance

/-- FX1E (R151): VF from the exact sum, then `I` on all 16 bits (D11; entry 13). -/
def execAddI (x : Nibble) (s : State) : Result :=
  .next ((s.setReg 0xF#4 (flagByte (leavesRange s.i (s.reg x)))).setI (s.i + zext8 (s.reg x))).advance

/-- FX29 (R152): "I = VX * 5 (font glyph base address); PC += 2", the whole byte. -/
def execLdF (x : Nibble) (s : State) : Result := .next (s.setI (glyphAddr (s.reg x))).advance

/-- FX33 (R153): hundreds, tens and ones digit at `I`, `I+1`, `I+2`. -/
def execLdB (x : Nibble) (s : State) : Result :=
  s.inRange 2 (.next (s.setMem (s.mem.writeBytes (s.ea 0) (decimalDigits (s.reg x)))).advance)

/-- FX55 (R154): V0 to VX at `I` to `I+X`. -/
def execStRegs (x : Nibble) (s : State) : Result :=
  s.inRange x.toNat (.next (s.setMem (s.mem.writeBytes (s.ea 0) (s.regsUpTo x))).advance)

/-- FX65 (R155): V0 to VX from `I` to `I+X`. -/
def execLdRegs (x : Nibble) (s : State) : Result :=
  s.inRange x.toNat (.next (s.loadRegs (s.ea 0) (x.toNat + 1)).advance)

end Sys2Proof.Machine
end

