-- ==== Sys2Proof/Machine/Keypad.lean ====
section
/-! DEFINITION. The keypad (46_keypad.md): EX9E, EXA1, FX0A, and what the host's key events do to the state
(R174 to R176). -/

namespace Sys2Proof.Machine

/-- EX9E (R171): skip if the key VX names is pressed. -/
def execSkp (x : Nibble) (s : State) : Result := s.withKey x fun k => .next (s.skipIf (s.keyDown k))

/-- EXA1 (R172): skip if the key VX names is not pressed. -/
def execSknp (x : Nibble) (s : State) : Result := s.withKey x fun k => .next (s.skipIf (!s.keyDown k))

/-- FX0A (R173): "enter WAITING_FOR_KEY with pending target = X; do not advance PC". -/
def execLdVxK (x : Nibble) (s : State) : Result := .next ((s.setMode .waitingForKey).setWaitReg x)

/-- `key_press(k)`: the key is down in either mode (R174); in WAITING_FOR_KEY it also stores its index, resumes RUNNING
and completes the FX0A with the one advance of `PC` (R175; D3, D18; entry 16). -/
def State.keyPress (s : State) (k : Nibble) : State :=
  match s.mode with
  | .running => s.setKey k true
  | .waitingForKey => (((s.setKey k true).setReg s.waitReg (zext4 k)).setMode .running).advance

/-- `key_release(k)`, in either mode (R176). -/
def State.keyRelease (s : State) (k : Nibble) : State := s.setKey k false

end Sys2Proof.Machine
end

