-- ==== Sys2Proof/Machine/Skips.lean ====
section
/-! DEFINITION. Conditional skips (42_skips.md): 3XNN, 4XNN, 5XY0, 9XY0. The skipped word is not examined (R120). -/

namespace Sys2Proof.Machine

/-- 3XNN (R121): skip if `V[X] = NN`. -/
def execSeImm (x : Nibble) (nn : Byte) (s : State) : Result := .next (s.skipIf (s.reg x == nn))

/-- 4XNN (R122): skip if `V[X] ≠ NN`. -/
def execSneImm (x : Nibble) (nn : Byte) (s : State) : Result := .next (s.skipIf (s.reg x != nn))

/-- 5XY0 (R123): skip if `V[X] = V[Y]`. -/
def execSeReg (x y : Nibble) (s : State) : Result := .next (s.skipIf (s.reg x == s.reg y))

/-- 9XY0 (R124): skip if `V[X] ≠ V[Y]`. -/
def execSneReg (x y : Nibble) (s : State) : Result := .next (s.skipIf (s.reg x != s.reg y))

end Sys2Proof.Machine
end

