-- ==== Sys2Proof/Machine/Timers.lean ====
section
/-! DEFINITION. The timers (47_timers.md): FX07, FX15, FX18 and the timer step with its sound signal (R184, R185). -/

namespace Sys2Proof.Machine

/-- FX07 (R181): "VX = delay timer; PC += 2", before this tick's timer step. -/
def execLdVxDt (x : Nibble) (s : State) : Result := .next (s.setReg x s.dt).advance

/-- FX15 (R182): "delay timer = VX; PC += 2". -/
def execLdDtVx (x : Nibble) (s : State) : Result := .next (s.setDt (s.reg x)).advance

/-- FX18 (R183): "sound timer = VX; PC += 2". -/
def execLdStVx (x : Nibble) (s : State) : Result := .next (s.setSt (s.reg x)).advance

/-- A timer's next value: one less while it is above zero (R184: it never wraps below zero). -/
def countDown (x : Byte) : Byte := if x = 0x00#8 then x else x - 1

/-- The timer step (R184): both timers count down; the sound is signalled when `ST` is exactly 1 before its decrement
(R185). -/
def State.timerStep (s : State) : State :=
  ((s.setDt (countDown s.dt)).setSt (countDown s.st)).setSound (s.st == 0x01#8)

end Sys2Proof.Machine
end

