-- ==== Sys2Proof/Machine/Tick.lean ====
section
/-! DEFINITION. The tick (R91 to R97), the host's operations (R100 to R106, R220), and which of them a step performs
(R107). -/

namespace Sys2Proof.Machine

/-! ### Fetch (R92) -/

/-- The word at an address: "memory[PC] as high byte, memory[PC+1] as low byte" (R52). -/
def Memory.wordAt (m : Memory) (a : Nat) : Word := wordOfBytes (m.read a) (m.read (a + 1))

/-- The opcode the next fetch reads, `MEM[PC] ∥ MEM[PC+1]` (R52, R92). -/
def State.opcode (s : State) : Word := s.mem.wordAt s.pc.toNat

/-! ### The tick (R96) -/

/-- After an instruction that completed, the timer step; a fault ends the tick (R95, R97). -/
def finishTick : Result → Result
  | .next t => .next t.timerStep
  | .fault f => .fault f
  | .refused r => .refused r

/-- A tick in RUNNING mode: fetch range, fetch, decode, execute, timer step (R92 to R96), in the order of R201. -/
def State.runTick (s : State) : Result :=
  if s.pc.toNat > 0xFFE then raise (.outOfBoundsFetch s.pc)
  else
    match decode s.opcode with
    | .ok i => finishTick (exec i s)
    | .error _ => raise (.opcodeFault s.opcode s.pc)

/-- `tick()` (R96, R103): in WAITING_FOR_KEY it does nothing (R91). -/
def State.tick (s : State) : Result :=
  match s.mode with
  | .waitingForKey => .next s
  | .running => s.runTick

/-! ### The host's operations (R100) -/

/-- What a loaded image does to memory: `MEM[0x200 + k] <- bytes[k]`, nothing else (R101). -/
def State.placeImage (s : State) (bytes : List Byte) : State := s.setMem (s.mem.writeBytes Config.progBase bytes)

/-- `load_program(bytes)` (R101): refused outside its contract (D20; entry 4). Above 3584 bytes it reports ProgramTooLarge
and leaves the core unmodified (R198); that is no tick's fault, so the run goes on (R107, R109; entry 32). -/
def State.loadProgram (s : State) (bytes : List Byte) : Result :=
  if s.loadOpen = false then .refused .loadOutsideContract
  else if imageFits bytes then .next ((s.placeImage bytes).setLoadOpen false)
  else .next ((s.setLoadOpen false).setLoadFault (some (.programTooLarge bytes.length Config.progMax)))

/-- `reset()` (R102, R220): a new machine; the host's remaining operations and the count of random bytes go on
(entries 1 and 2). -/
def State.newCore (s : State) : State := (State.reset.setScript s.script).setDraws s.draws

/-- `display()` (R105): the 2048 cells, read only. -/
def State.display (s : State) : Display := s.disp

/-- One host operation (R100). `display` and `on_sound` change nothing (R105, R106). A tick or a key event ends the time
in which a program may be loaded (D20, U8). -/
def State.perform (s : State) : HostOp → Result
  | .reset => .next s.newCore
  | .loadProgram bytes => s.loadProgram bytes
  | .tick => (s.setLoadOpen false).tick
  | .keyPress k => .next ((s.setLoadOpen false).keyPress k)
  | .keyRelease k => .next ((s.setLoadOpen false).keyRelease k)
  | .display => .next s
  | .onSound => .next s

/-- The host's next operation (R107): the head of the script; a host with nothing else to do ticks (entry 1). -/
def State.nextOp (s : State) : HostOp := s.script.headD .tick

/-- The state an operation starts from: its operation is taken off the script, no sound is signalled yet (entry 3)
and no load has failed (entry 32). -/
def State.beginOp (s : State) : State := ((s.setScript s.script.tail).setSound false).setLoadFault none

/-- The state the tick of a step starts from. -/
def State.beginTick (s : State) : State := s.beginOp.setLoadOpen false

/-- One step of the machine: one operation of the host (R107). -/
def State.hostStep (s : State) : Result := s.beginOp.perform s.nextOp

/-! ### Placing one instruction for the next step -/

/-- Where `placeWord` puts its word: `PC`, or the program base when no fetch at `PC` could succeed (R54). -/
def State.fetchPc (s : State) : Word := if s.pc.toNat > 0xFFE then BitVec.ofNat 16 Config.progBase else s.pc

/-- The word stored, high byte first (R52), where the next step fetches it: the machine RUNNING, the next operation a
tick, and `PC` in range. -/
def State.placeWord (s : State) (w : Word) : State :=
  (((s.setMem (s.mem.writeBytes s.fetchPc.toNat [highByte w, lowByte w])).setPc s.fetchPc).setMode .running).setScript []

end Sys2Proof.Machine
end

