-- ==== Sys2Proof/Machine/Step.lean ====
section
/-! DEFINITION. The step of the machine, and the host's hook for placing one instruction. -/

namespace Sys2Proof.Machine

/-- One step: the host's next operation, a tick unless the script says another (R107; entry 1). -/
def step (s : State) : Host.Outcome State Fault Refusal := s.hostStep

/-- `s` with the table's word `w` where the next step fetches (entry 17). -/
def State.withFetchWord (s : State) (nbits w : Nat) : State := s.placeWord (tableWord nbits w)

end Sys2Proof.Machine
end

