-- ==== Sys2Proof/Safety.lean ====
section
/-! DEFINITION. What every reachable state satisfies (R37), the runs of the machine (R107), and when a run waits or has
faulted (R109), and the spec's whole-machine tables claims are stated in: the writers of each state element (R13, R22,
R36), the PC updates (R26), the fault conditions and their order (R190, R201), and the cells a sprite covers (R162). -/

namespace Sys2Proof.Machine

/-- The invariants of R37, with the canonical form of memory. That SP stays in −1 to 15 and cells and keys are single bits
is in the types. -/
structure Inv (s : State) : Prop where
  /-- Memory is in its canonical form, inside the address space (R21). -/
  memory : s.mem.wf = true
  /-- `PC <= 0x10FE` (R26, R37). -/
  pcBound : s.pc.toNat ≤ 0x10FE
  /-- Each live stack slot holds an address `<= 0xFFE` (R37). -/
  stackBound : ∀ (j : Nat) (h : j < 16), j < s.depth.val → s.stack[j].toNat ≤ 0xFFE
  /-- While waiting, `PC <= 0xFFE` and the word there is an FX0A whose X is `WAIT_REG` (R37). -/
  waiting : s.mode = .waitingForKey → s.pc.toNat ≤ 0xFFE ∧ decode s.opcode = .ok (.ldVxK s.waitReg)
  /-- A core that waits has ticked, so no program may be loaded (D20). -/
  loadClosed : s.mode = .waitingForKey → s.loadOpen = false

/-- The states of the runs of R107: from `reset` under any list of host operations, by steps that answer a next state. -/
inductive Reachable : State → Prop where
  /-- A fresh core and any operations of the host. -/
  | start (ops : List HostOp) : Reachable (State.reset.setScript ops)
  /-- One more operation. -/
  | step {s t : State} (before : Reachable s) (one : step s = .next t) : Reachable t

/-- A run is waiting while `MODE = WAITING_FOR_KEY` (R109). -/
def Waits (s : State) : Prop := s.mode = .waitingForKey

/-- "A run *has faulted* when a tick returned `Fault f`" (R109); it is then ended (D29; entry 19). An oversized
`load_program` is no tick and the run goes on (entry 32). -/
def Faults (s : State) (f : Fault) : Prop := s.nextOp = .tick ∧ step s = .fault f

/-! ### Frames -/

/-- The state elements a frame speaks of: those of R20, and the model's own bookkeeping. -/
inductive Elem where
  | mem | v | i | pc | stack | dt | st | disp | key | mode | draws | host
  deriving DecidableEq, Repr

/-- The element is the same in both states: memory byte by byte, registers and keys one by one. -/
def Elem.Same : Elem → State → State → Prop
  | .mem, s, t => ∀ a, t.mem.read a = s.mem.read a
  | .v, s, t => ∀ r, t.reg r = s.reg r
  | .i, s, t => t.i = s.i
  | .pc, s, t => t.pc = s.pc
  | .stack, s, t => t.stack = s.stack ∧ t.depth = s.depth
  | .dt, s, t => t.dt = s.dt
  | .st, s, t => t.st = s.st
  | .disp, s, t => t.disp = s.disp
  | .key, s, t => ∀ k, t.keyDown k = s.keyDown k
  | .mode, s, t => t.mode = s.mode ∧ t.waitReg = s.waitReg
  | .draws, s, t => t.draws = s.draws
  | .host, s, t => t.script = s.script ∧ t.sound = s.sound ∧ t.loadOpen = s.loadOpen ∧
    t.loadFault = s.loadFault

/-- Every element not listed is unchanged from `s` to `t`. -/
def SameExcept (changed : List Elem) (s t : State) : Prop := ∀ e, e ∉ changed → e.Same s t

/-- The elements an instruction may write (R13, R22, R26, R36): "A state element that the row of an instruction does not
name is not changed by that instruction". That a row is complete is the spec's decision D25 (entry 25). -/
def elemsWritten : Instr → List Elem
  | .cls => [.disp, .pc]
  | .ret | .call _ => [.stack, .pc]
  | .jp _ | .jpV0 _ | .seImm _ _ | .sneImm _ _ | .seReg _ _ | .sneReg _ _ | .skp _ | .sknp _ => [.pc]
  | .ldImm _ _ | .addImm _ _ | .ldReg _ _ | .or _ _ | .and _ _ | .xor _ _ => [.v, .pc]
  | .addReg _ _ | .sub _ _ | .shr _ _ | .subn _ _ | .shl _ _ => [.v, .pc]
  | .rnd _ _ => [.v, .draws, .pc]
  | .ldI _ | .ldF _ => [.i, .pc]
  | .addI _ => [.v, .i, .pc]
  | .ldB _ | .stRegs _ => [.mem, .pc]
  | .ldRegs _ | .ldVxDt _ => [.v, .pc]
  | .drw _ _ _ => [.disp, .v, .pc]
  | .ldVxK _ => [.mode]
  | .ldDtVx _ => [.dt, .pc]
  | .ldStVx _ => [.st, .pc]

/-- The registers an instruction may write: the table of R22, with the flag writers of R23. -/
def writesReg : Instr → Nibble → Prop
  | .ldImm x _, r | .rnd x _, r | .ldVxDt x, r | .addImm x _, r => r = x
  | .ldReg x _, r | .or x _, r | .and x _, r | .xor x _, r => r = x
  | .addReg x _, r | .sub x _, r | .shr x _, r | .subn x _, r | .shl x _, r => r = x ∨ r = 0xF#4
  | .drw _ _ _, r | .addI _, r => r = 0xF#4
  | .ldRegs x, r => r.toNat ≤ x.toNat
  | .cls, _ | .ret, _ | .jp _, _ | .call _, _ | .ldI _, _ | .jpV0 _, _ => False
  | .seImm _ _, _ | .sneImm _ _, _ | .seReg _ _, _ | .sneReg _ _, _ | .skp _, _ | .sknp _, _ => False
  | .ldVxK _, _ | .ldDtVx _, _ | .ldStVx _, _ | .ldF _, _ | .ldB _, _ | .stRegs _, _ => False

/-- `STACK[SP]`, the slot a return reads (R27). -/
def topOfStack (s : State) : Word := s.stack.toList.getD (s.depth.val - 1) 0

/-- `KEY[v]` for a whole byte `v`, false above 15 (R32). -/
def keyAt (s : State) (v : Byte) : Bool := s.key.toList.getD v.toNat false

/-- The table of R26: `PC` after an instruction that did not fault, on 16 bits. The `+ 2` of the return is D2's. -/
def pcAfter (i : Instr) (s : State) : Word :=
  match i with
  | .jp nnn | .call nnn => BitVec.ofNat 16 nnn.toNat
  | .jpV0 nnn => BitVec.ofNat 16 (nnn.toNat + (s.reg 0x0#4).toNat)
  | .ret => topOfStack s + 2
  | .seImm x nn => if s.reg x = nn then s.pc + 4 else s.pc + 2
  | .sneImm x nn => if s.reg x = nn then s.pc + 2 else s.pc + 4
  | .seReg x y => if s.reg x = s.reg y then s.pc + 4 else s.pc + 2
  | .sneReg x y => if s.reg x = s.reg y then s.pc + 2 else s.pc + 4
  | .skp x => if keyAt s (s.reg x) = true then s.pc + 4 else s.pc + 2
  | .sknp x => if keyAt s (s.reg x) = true then s.pc + 2 else s.pc + 4
  | .ldVxK _ => s.pc
  | _ => s.pc + 2

/-! ### Faults -/

/-- The one fault condition of an instruction (R190, R201), none for the instructions R190 does not list. The range
check of data accesses is the spec's decision D7 (entry 9), the key index check its decision D10 (entry 10). -/
def faultCondition (i : Instr) (s : State) : Option Fault :=
  match i with
  | .call _ => if s.sp = 15 then some (.stackOverflow s.pc) else none
  | .ret => if s.sp = -1 then some (.stackUnderflow s.pc) else none
  | .drw _ _ n =>
    if 0 < n.toNat ∧ s.i.toNat + n.toNat - 1 > 0xFFF then some (.outOfBoundsData (s.i.toNat + n.toNat - 1)) else none
  | .ldB _ => if s.i.toNat + 2 > 0xFFF then some (.outOfBoundsData (s.i.toNat + 2)) else none
  | .stRegs x | .ldRegs x =>
    if s.i.toNat + x.toNat > 0xFFF then some (.outOfBoundsData (s.i.toNat + x.toNat)) else none
  | .skp x | .sknp x => if (s.reg x).toNat > 15 then some (.keyIndexFault (s.reg x)) else none
  | _ => none

/-- The order of checks within a tick (R201): mode, fetch range, decode, the instruction's condition, which for data
accesses is D7's (entry 9) and for key indices D10's (entry 10). -/
def tickFault (s : State) : Option Fault :=
  match s.mode with
  | .waitingForKey => none
  | .running =>
    if s.pc.toNat > 0xFFE then some (.outOfBoundsFetch s.pc)
    else
      match decode (s.mem.read s.pc.toNat ++ s.mem.read (s.pc.toNat + 1)) with
      | .error _ => some (.opcodeFault (s.mem.read s.pc.toNat ++ s.mem.read (s.pc.toNat + 1)) s.pc)
      | .ok i => faultCondition i s

/-! ### Sprites -/

/-- A 1 bit of the sprite of `n` bytes at `a`, drawn from `(x0, y0)`, falls on the cell in column `cx` and row `cy`: bit
`7 − c` of byte `r`, at column `(x0 + c) mod 64` and row `(y0 + r) mod 32` (R162, R163). -/
def spriteCovers (m : Memory) (a n : Nat) (x0 y0 : Byte) (cx : Fin 64) (cy : Fin 32) : Prop :=
  ∃ r < n, ∃ c < 8, (m.read (a + r)).getLsbD (7 - c) = true ∧
    cx.val = (x0.toNat + c) % 64 ∧ cy.val = (y0.toNat + r) % 32

end Sys2Proof.Machine
end

