-- ==== Sys2Proof/Certificates/Slice0/Obligations.lean ====
section
/-! DEFINITION. The statements for the provers. Where a clause rests on a decision of the spec (D<n>) or a choice of the
model (entry <n> of notes/assumptions), its docstring says so. `SameExcept l s t` says that every state element not in `l`
is unchanged. -/

open Sys2Proof Sys2Proof.Machine

/-! ### Encoding -/

/-- Decoding an encoded instruction gives it back, at every operand (R72, R73, R76). -/
def Obligations.DecodeOfEncodeIsIdentity : Prop := ∀ i : Instr, decode (encode i) = .ok i

/-- Every opcode that decodes is the encoding of its instruction: each word has one meaning and each instruction one word
(R70, R76, R78: the ignored Y field is kept). -/
def Obligations.EncodeOfDecodeIsIdentity : Prop :=
  ∀ (w : Word) (i : Instr), decode w = .ok i → encode i = w

/-- The family dispatch decodes exactly the words of the opcode list, each to its row's instruction; any other word is a
decode failure that names it (R75, R76, R80). -/
def Obligations.DecodeAgreesWithOpcodeList : Prop :=
  ∀ w : Word,
    (∀ i, decode w = .ok i → ∃ r ∈ opcodeRows, r.id = i.mnemonic ∧ w &&& r.mask = r.value) ∧
    (∀ r ∈ opcodeRows, w &&& r.mask = r.value → ∃ i, decode w = .ok i ∧ i.mnemonic = r.id) ∧
    ((∀ r ∈ opcodeRows, w &&& r.mask ≠ r.value) → decode w = .error (.decodeFailure w))

/-- "At most one row can match": the rows of the opcode list are pairwise disjoint (R75). -/
def Obligations.OpcodeListRowsAreDisjoint : Prop :=
  ∀ w : Word, ∀ r ∈ opcodeRows, ∀ q ∈ opcodeRows, w &&& r.mask = r.value → w &&& q.mask = q.value → r = q

/-- Seven words of the formats, written out from their patterns (95_test_vectors.md section 2), decode to their
instructions; the eighth, 0x5121, is a decode failure, since the literal low nibble of 5XY0 must match exactly (R79: the
spec's decision D21, entry 23). -/
def Obligations.WrittenOutWordsDecode : Prop :=
  decode 0b0000000011100000#16 = .ok .cls ∧ decode 0b0010111111111111#16 = .ok (.call 0xFFF) ∧
  decode 0b0011101001111111#16 = .ok (.seImm 0xA 0x7F) ∧ decode 0b1000101010110101#16 = .ok (.sub 0xA 0xB) ∧
  decode 0b1101000100101111#16 = .ok (.drw 0x1 0x2 0xF) ∧ decode 0b1110111110011110#16 = .ok (.skp 0xF) ∧
  decode 0b1111111001100101#16 = .ok (.ldRegs 0xE) ∧ decode 0b0101000100100001#16 = .error (.decodeFailure 0x5121)

/-! ### The tick -/

/-- A tick in RUNNING mode with a fetchable PC runs the instruction its two bytes decode to, on the state the tick starts
from, and the timer step after it when it completed (R92 to R96). That state is `s` but for the model's bookkeeping
(entries 1, 3, 4 and 32). -/
def Obligations.StepExecutesDecodedInstruction : Prop :=
  ∀ (s : State) (i : Instr), s.nextOp = .tick → s.mode = .running → s.pc.toNat ≤ 0xFFE →
    decode (s.mem.read s.pc.toNat ++ s.mem.read (s.pc.toNat + 1)) = .ok i →
    SameExcept [.host] s s.beginTick ∧
    step s = match exec i s.beginTick with
      | .next u => .next u.timerStep
      | .fault f => .fault f
      | .refused r => .refused r

/-- A tick whose opcode decodes to nothing raises OpcodeFault with the raw opcode and the unchanged PC (R93). -/
def Obligations.UndecodedOpcodeFaults : Prop :=
  ∀ (s : State) (w : Word) (e : DecodeError), s.nextOp = .tick → s.mode = .running → s.pc.toNat ≤ 0xFFE →
    w = s.mem.read s.pc.toNat ++ s.mem.read (s.pc.toNat + 1) → decode w = .error e →
    step s = .fault (.opcodeFault w s.pc)

/-- A tick in WAITING_FOR_KEY completes and changes nothing, and signals no sound (R91; the test of the mode at the start
of the tick is D17's). -/
def Obligations.WaitingTickChangesNothing : Prop :=
  ∀ s : State, s.nextOp = .tick → s.mode = .waitingForKey →
    ∃ t, step s = .next t ∧ SameExcept [.host] s t ∧ t.sound = false ∧ t.script = s.script.tail

/-- The timer step: after every instruction that completed, FX0A included (D17's, entry 21), both timers are one lower
while above zero and the sound is signalled exactly when ST was 1 (R95, R184). In every other step, which is a waiting tick
(R91) or any other operation of the host (R101, R105, R106, R184), nothing is signalled and both timers stand, unless the
operation is the reset, which sets both to zero (R220). -/
def Obligations.TimerStepAfterEveryInstruction : Prop :=
  (∀ (s u : State) (i : Instr), s.nextOp = .tick → s.mode = .running → s.pc.toNat ≤ 0xFFE →
    decode (s.mem.read s.pc.toNat ++ s.mem.read (s.pc.toNat + 1)) = .ok i → exec i s.beginTick = .next u →
    ∃ t, step s = .next t ∧ t.dt.toNat = u.dt.toNat - 1 ∧ t.st.toNat = u.st.toNat - 1 ∧
      (t.sound = true ↔ u.st.toNat = 1) ∧ SameExcept [.dt, .st, .host] u t) ∧
  (∀ s t : State, step s = .next t → ¬(s.nextOp = .tick ∧ s.mode = .running) →
    t.sound = false ∧ if s.nextOp = .reset then t.dt = 0 ∧ t.st = 0 else t.dt = s.dt ∧ t.st = s.st)

/-- An instruction faults exactly on the condition R190 lists for it, with that fault, and on no other ground (R190, R199,
R201; the conditions of R193 and R196 are D7's and D10's). -/
def Obligations.InstructionFaultsExactlyAsListed : Prop :=
  ∀ (i : Instr) (s : State) (f : Fault), exec i s = .fault f ↔ faultCondition i s = some f

/-- Every instruction, on every state on which its fault condition does not hold, completes (R94, R190, R199). -/
def Obligations.InstructionCompletesUnlessListed : Prop :=
  ∀ (i : Instr) (s : State), faultCondition i s = none → ∃ t, exec i s = .next t

/-- A step answers a fault exactly when it is a tick, with the first of the checks of R201 that fails; a waiting tick never
faults. The range check of data accesses is D7's (entry 9), the key index check D10's (entry 10). ProgramTooLarge is a
fault too (R190, R198), of `load_program`: that its step answers a next state which reports it, and no fault, is the
model's choice (entry 32), after the spec's decision that a run has faulted when a tick did (R109, D29; entry 19). -/
def Obligations.TickFaultsInOrderOfChecks : Prop :=
  ∀ (s : State) (f : Fault), step s = .fault f ↔ s.nextOp = .tick ∧ tickFault s = some f

/-- The only operation the machine refuses is a `load_program` outside the host's contract, and the window of the contract
is open after a step exactly if the step was a reset, or it was open before and the step was a display or an on_sound: a
load, fitting or not, a tick and a key event close it (R101's decision D20, R107, R222; entry 4). -/
def Obligations.OnlyLateLoadsAreRefused : Prop :=
  (∀ (s : State) (r : Refusal), step s = .refused r ↔
    ∃ bytes, s.nextOp = .loadProgram bytes ∧ s.loadOpen = false ∧ r = .loadOutsideContract) ∧
  (∀ s t : State, step s = .next t →
    (t.loadOpen = true ↔ s.nextOp = .reset ∨ s.loadOpen = true ∧ (s.nextOp = .display ∨ s.nextOp = .onSound)))

/-! ### Invariants -/

/-- The state after reset, under any operations of the host, satisfies the invariants of R37. -/
def Obligations.ResetSatisfiesInvariants : Prop := ∀ ops : List HostOp, Inv (State.reset.setScript ops)

/-- Every step keeps the invariants of R37: PC at most 0x10FE, live stack slots at most 0xFFE, a waiting core on its FX0A,
and memory in its canonical form. -/
def Obligations.StepKeepsInvariants : Prop := ∀ s t : State, Inv s → step s = .next t → Inv t

/-- Every state of every run, under every sequence of host operations, satisfies the invariants of R37. -/
def Obligations.ReachableStatesSatisfyInvariants : Prop := ∀ s : State, Reachable s → Inv s

/-- Canonical memories that read alike at every address are equal, so equal memories are equal data. A law of the model's
own list form of memory (entry 30, a DESIGN CHOICE), not of a rule of the spec. -/
def Obligations.CanonicalMemoriesReadingAlikeAreEqual : Prop :=
  ∀ m n : Memory, m.wf = true → n.wf = true → (∀ a, m.read a = n.read a) → m = n

/-! ### The host's operations -/

/-- `load_program` within its contract puts the image at 0x200, changes nothing else and reports no fault; memory stays
canonical (R101, R198; that the contract ends with the first load, tick or key event is D20's, entry 4). -/
def Obligations.LoadProgramPlacesImage : Prop :=
  ∀ (s : State) (bytes : List Byte), s.nextOp = .loadProgram bytes → s.loadOpen = true → bytes.length ≤ 3584 →
    s.mem.wf = true →
    ∃ t, step s = .next t ∧ (∀ (k : Nat) (h : k < bytes.length), t.mem.read (0x200 + k) = bytes[k]) ∧
      (∀ a, a < 0x200 ∨ 0x200 + bytes.length ≤ a → t.mem.read a = s.mem.read a) ∧ t.mem.wf = true ∧
      SameExcept [.mem, .host] s t ∧ t.loadOpen = false ∧ t.loadFault = none

/-- ProgramTooLarge exactly above 3584 bytes, carrying the requested length and 3584: the operation reports it, the core is
left unmodified and the run goes on; a length of exactly 3584 is accepted and fills 0x200 to 0xFFF (R101, R109, R198). That
the load comes within its contract is D20's (entry 4), the form of the report the model's (entry 32). -/
def Obligations.OversizedImageFaults : Prop :=
  (∀ (s : State) (bytes : List Byte), s.nextOp = .loadProgram bytes → s.loadOpen = true →
    (bytes.length > 4096 - 0x200 →
      ∃ t, step s = .next t ∧ t.loadFault = some (.programTooLarge bytes.length 3584) ∧ SameExcept [.host] s t) ∧
    (bytes.length ≤ 4096 - 0x200 → ∃ t, step s = .next t ∧ t.loadFault = none) ∧
    (bytes.length = 3584 → s.mem.wf = true → ∃ t, step s = .next t ∧
      ∀ a, 0x200 ≤ a → a ≤ 0xFFF → t.mem.read a = bytes.getD (a - 0x200) 0)) ∧
  (∀ s t : State, step s = .next t → t.loadFault ≠ none →
    ∃ bytes, s.nextOp = .loadProgram bytes ∧ bytes.length > 4096 - 0x200)

/-- The value of every state element after reset (R20, R38, R220): memory is the font from 0 and zero from 0x050 (the
font's bytes are the parameter FONT; the display, keys and WAIT_REG are R31's and D19's). -/
def Obligations.ResetValues : Prop :=
  (∀ a, a < 80 → State.reset.mem.read a = font.getD a 0) ∧ (∀ a, 80 ≤ a → State.reset.mem.read a = 0) ∧
  (∀ r, State.reset.reg r = 0) ∧ State.reset.i = 0 ∧ State.reset.pc = 0x200 ∧
  (∀ (j : Nat) (h : j < 16), State.reset.stack[j] = 0) ∧ State.reset.sp = -1 ∧ State.reset.dt = 0 ∧
  State.reset.st = 0 ∧ (∀ x y, Display.cell State.reset.disp x y = false) ∧ (∀ k, State.reset.keyDown k = false) ∧
  State.reset.mode = .running ∧ State.reset.waitReg = 0

/-- The operation `reset()` gives the state after reset whatever the state was, signals no sound, reports no fault and
opens the window of `load_program` again (R101, R102, R220, R222; the window is D20's, entry 4). The random bytes and the
rest of the host's operations go on (entries 1, 2 and 29). -/
def Obligations.ResetOperationGivesFreshCore : Prop :=
  ∀ s : State, s.nextOp = .reset →
    ∃ t, step s = .next t ∧ SameExcept [.draws, .host] State.reset t ∧ t.draws = s.draws ∧ t.sound = false ∧
      t.loadOpen = true ∧ t.loadFault = none ∧ t.script = s.script.tail

/-- `key_press(k)` in RUNNING mode: KEY[k] is true, nothing else changes (R174). -/
def Obligations.KeyPressWhileRunningSetsKey : Prop :=
  ∀ (s : State) (k : Nibble), s.nextOp = .keyPress k → s.mode = .running →
    ∃ t, step s = .next t ∧ (∀ q, t.keyDown q = if q = k then true else s.keyDown q) ∧ SameExcept [.key, .host] s t

/-- `key_release(k)` in either mode: KEY[k] is false, nothing else changes (R176). -/
def Obligations.KeyReleaseClearsKey : Prop :=
  ∀ (s : State) (k : Nibble), s.nextOp = .keyRelease k →
    ∃ t, step s = .next t ∧ (∀ q, t.keyDown q = if q = k then false else s.keyDown q) ∧ SameExcept [.key, .host] s t

/-- `key_press(k)` in WAITING_FOR_KEY: KEY[k] is true, the pending register holds k, the mode is RUNNING and PC has
advanced by 2 (R175; the advance is D3's, the recorded key D18's). -/
def Obligations.KeyPressResolvesWait : Prop :=
  ∀ (s : State) (k : Nibble), s.nextOp = .keyPress k → s.mode = .waitingForKey →
    ∃ t, step s = .next t ∧ (∀ q, t.keyDown q = if q = k then true else s.keyDown q) ∧
      (t.reg s.waitReg).toNat = k.toNat ∧ (∀ r, r ≠ s.waitReg → t.reg r = s.reg r) ∧ t.mode = .running ∧
      t.waitReg = s.waitReg ∧ t.pc = s.pc + 2 ∧ SameExcept [.key, .v, .mode, .pc, .host] s t

/-- The key-wait machine (R177): after a step the core waits exactly if it waited and no key was pressed, nor the core
replaced, or a tick executed FX0A. -/
def Obligations.KeyWaitTransitions : Prop :=
  ∀ s t : State, step s = .next t →
    (t.mode = .waitingForKey ↔
      (s.mode = .waitingForKey ∧ (∀ k, s.nextOp ≠ .keyPress k) ∧ s.nextOp ≠ .reset) ∨
      (s.mode = .running ∧ s.nextOp = .tick ∧
        ∃ x, decode (s.mem.read s.pc.toNat ++ s.mem.read (s.pc.toNat + 1)) = .ok (.ldVxK x)))

/-! ### Control transfer -/

/-- 1NNN (R111): PC is NNN; nothing else changes. -/
def Obligations.JumpSetsProgramCounter : Prop :=
  ∀ (s : State) (nnn : Addr12), ∃ t, exec (.jp nnn) s = .next t ∧ t.pc.toNat = nnn.toNat ∧ SameExcept [.pc] s t

/-- 2NNN (R112): with room, SP moves up by one, the new top slot holds the address of the call itself, the other slots
stand, PC is NNN; with 16 addresses live, StackOverflow(PC). -/
def Obligations.CallPushesItsOwnAddress : Prop :=
  ∀ (s : State) (nnn : Addr12),
    (s.sp < 15 → ∃ t, exec (.call nnn) s = .next t ∧ t.sp = s.sp + 1 ∧ topOfStack t = s.pc ∧
      (∀ (j : Nat) (h : j < 16), j ≠ s.depth.val → t.stack[j] = s.stack[j]) ∧ t.pc.toNat = nnn.toNat ∧
      SameExcept [.stack, .pc] s t) ∧
    (s.sp = 15 → exec (.call nnn) s = .fault (.stackOverflow s.pc))

/-- BNNN (R113): PC is NNN + V0, neither wrapped nor masked (D12). -/
def Obligations.JumpWithOffsetAddsV0 : Prop :=
  ∀ (s : State) (nnn : Addr12), ∃ t, exec (.jpV0 nnn) s = .next t ∧
    t.pc.toNat = nnn.toNat + (s.reg 0x0).toNat ∧ SameExcept [.pc] s t

/-- 00EE (R114): with an address live, PC is the popped value plus 2 (D2), SP moves down by one and no slot changes; on an
empty stack, StackUnderflow(PC). -/
def Obligations.ReturnResumesAfterPoppedAddress : Prop :=
  ∀ s : State,
    (s.sp ≥ 0 → ∃ t, exec .ret s = .next t ∧ t.pc = topOfStack s + 2 ∧ t.sp = s.sp - 1 ∧ t.stack = s.stack ∧
      SameExcept [.stack, .pc] s t) ∧
    (s.sp = -1 → exec .ret s = .fault (.stackUnderflow s.pc))

/-- A call, then a return from any state with the stack and depth the call left, whatever the subroutine has done to the
registers, memory, timers and the rest: the return resumes after the call at the old depth, and the live slots below are
as they were (R112, R114, R115; D2, entry 7). -/
def Obligations.ReturnUndoesCall : Prop :=
  ∀ (s t w : State) (nnn : Addr12), exec (.call nnn) s = .next t → w.stack = t.stack → w.depth = t.depth →
    ∃ u, exec .ret w = .next u ∧ u.pc = s.pc + 2 ∧ u.depth = s.depth ∧
      ∀ (j : Nat) (h : j < 16), j < s.depth.val → u.stack[j] = s.stack[j]

/-! ### Skips -/

/-- 3XNN and 4XNN (R121, R122): PC moves by 4 if the condition holds, else by 2; nothing else changes. -/
def Obligations.ImmediateSkips : Prop :=
  ∀ (s : State) (x : Nibble) (nn : Byte),
    (∃ t, exec (.seImm x nn) s = .next t ∧ t.pc = s.pc + (if s.reg x = nn then 4 else 2) ∧ SameExcept [.pc] s t) ∧
    (∃ t, exec (.sneImm x nn) s = .next t ∧ t.pc = s.pc + (if s.reg x = nn then 2 else 4) ∧ SameExcept [.pc] s t)

/-- 5XY0 and 9XY0 (R123, R124): PC moves by 4 if the condition holds, else by 2; nothing else changes. -/
def Obligations.RegisterSkips : Prop :=
  ∀ (s : State) (x y : Nibble),
    (∃ t, exec (.seReg x y) s = .next t ∧ t.pc = s.pc + (if s.reg x = s.reg y then 4 else 2) ∧ SameExcept [.pc] s t) ∧
    (∃ t, exec (.sneReg x y) s = .next t ∧ t.pc = s.pc + (if s.reg x = s.reg y then 2 else 4) ∧ SameExcept [.pc] s t)

/-- EX9E and EXA1 (R171, R172): with VX a key index, PC moves by 4 or 2 as the key is pressed or not; with VX above 15,
KeyIndexFault(VX) (D10). -/
def Obligations.KeySkips : Prop :=
  ∀ (s : State) (x : Nibble),
    ((s.reg x).toNat ≤ 15 →
      (∃ t, exec (.skp x) s = .next t ∧ t.pc = s.pc + (if keyAt s (s.reg x) = true then 4 else 2) ∧
        SameExcept [.pc] s t) ∧
      (∃ t, exec (.sknp x) s = .next t ∧ t.pc = s.pc + (if keyAt s (s.reg x) = true then 2 else 4) ∧
        SameExcept [.pc] s t)) ∧
    ((s.reg x).toNat > 15 → exec (.skp x) s = .fault (.keyIndexFault (s.reg x)) ∧
      exec (.sknp x) s = .fault (.keyIndexFault (s.reg x)))

/-! ### Registers -/

/-- 6XNN and 7XNN (R131, R132): VX is NN, or the sum modulo 256; no other register, VF included, changes unless it is VX;
PC moves by 2. -/
def Obligations.LoadAndAddImmediate : Prop :=
  ∀ (s : State) (x : Nibble) (nn : Byte),
    (∃ t, exec (.ldImm x nn) s = .next t ∧ (∀ r, t.reg r = if r = x then nn else s.reg r) ∧ t.pc = s.pc + 2 ∧
      SameExcept [.v, .pc] s t) ∧
    (∃ t, exec (.addImm x nn) s = .next t ∧ (t.reg x).toNat = ((s.reg x).toNat + nn.toNat) % 256 ∧
      (∀ r, r ≠ x → t.reg r = s.reg r) ∧ t.pc = s.pc + 2 ∧ SameExcept [.v, .pc] s t)

/-- 8XY0 to 8XY3 (R133 to R136): VX is VY, or the OR, AND or exclusive OR of both, bit by bit; no other register changes;
PC moves by 2. -/
def Obligations.CopyAndLogic : Prop :=
  ∀ (s : State) (x y : Nibble),
    (∃ t, exec (.ldReg x y) s = .next t ∧ (∀ r, t.reg r = if r = x then s.reg y else s.reg r) ∧ t.pc = s.pc + 2 ∧
      SameExcept [.v, .pc] s t) ∧
    (∃ t, exec (.or x y) s = .next t ∧
      (∀ k, (t.reg x).getLsbD k = ((s.reg x).getLsbD k || (s.reg y).getLsbD k)) ∧
      (∀ r, r ≠ x → t.reg r = s.reg r) ∧ t.pc = s.pc + 2 ∧ SameExcept [.v, .pc] s t) ∧
    (∃ t, exec (.and x y) s = .next t ∧
      (∀ k, (t.reg x).getLsbD k = ((s.reg x).getLsbD k && (s.reg y).getLsbD k)) ∧
      (∀ r, r ≠ x → t.reg r = s.reg r) ∧ t.pc = s.pc + 2 ∧ SameExcept [.v, .pc] s t) ∧
    (∃ t, exec (.xor x y) s = .next t ∧
      (∀ k, (t.reg x).getLsbD k = ((s.reg x).getLsbD k ^^ (s.reg y).getLsbD k)) ∧
      (∀ r, r ≠ x → t.reg r = s.reg r) ∧ t.pc = s.pc + 2 ∧ SameExcept [.v, .pc] s t)

/-- 8XY4 (R137): VX is the sum modulo 256, whatever X is; VF, unless X is F, is 1 if the sum is above 255, else 0; no other
register changes. That with X = F the sum replaces the carry is D4's (R142). -/
def Obligations.AddRegistersSetsCarry : Prop :=
  ∀ (s : State) (x y : Nibble), ∃ t, exec (.addReg x y) s = .next t ∧
    (t.reg x).toNat = ((s.reg x).toNat + (s.reg y).toNat) % 256 ∧
    (x ≠ 0xF → t.reg 0xF = if (s.reg x).toNat + (s.reg y).toNat > 255 then 1 else 0) ∧
    (∀ r, r ≠ x → r ≠ 0xF → t.reg r = s.reg r) ∧ t.pc = s.pc + 2 ∧ SameExcept [.v, .pc] s t

/-- 8XY5 and 8XY7 (R138, R140): VX is the difference modulo 256, whatever X is; VF, unless X is F, is 1 if no borrow
occurred, else 0; no other register changes. The case X = F is D4's (R142). -/
def Obligations.SubtractRegistersSetsNotBorrow : Prop :=
  ∀ (s : State) (x y : Nibble),
    (∃ t, exec (.sub x y) s = .next t ∧
      (t.reg x).toNat = ((s.reg x).toNat + 256 - (s.reg y).toNat) % 256 ∧
      (x ≠ 0xF → t.reg 0xF = if (s.reg x).toNat ≥ (s.reg y).toNat then 1 else 0) ∧
      (∀ r, r ≠ x → r ≠ 0xF → t.reg r = s.reg r) ∧ t.pc = s.pc + 2 ∧ SameExcept [.v, .pc] s t) ∧
    (∃ t, exec (.subn x y) s = .next t ∧
      (t.reg x).toNat = ((s.reg y).toNat + 256 - (s.reg x).toNat) % 256 ∧
      (x ≠ 0xF → t.reg 0xF = if (s.reg y).toNat ≥ (s.reg x).toNat then 1 else 0) ∧
      (∀ r, r ≠ x → r ≠ 0xF → t.reg r = s.reg r) ∧ t.pc = s.pc + 2 ∧ SameExcept [.v, .pc] s t)

/-- 8XY6 and 8XYE (R139, R141): VX is halved, or doubled modulo 256, for every Y (R78); VF, unless X is F, is the bit
shifted out of the old value; no other register changes. The case X = F is D4's (R142). -/
def Obligations.ShiftsMoveVxByOne : Prop :=
  ∀ (s : State) (x y : Nibble),
    (∃ t, exec (.shr x y) s = .next t ∧ (t.reg x).toNat = (s.reg x).toNat / 2 ∧
      (x ≠ 0xF → (t.reg 0xF).toNat = (s.reg x).toNat % 2) ∧
      (∀ r, r ≠ x → r ≠ 0xF → t.reg r = s.reg r) ∧ t.pc = s.pc + 2 ∧ SameExcept [.v, .pc] s t) ∧
    (∃ t, exec (.shl x y) s = .next t ∧ (t.reg x).toNat = (s.reg x).toNat * 2 % 256 ∧
      (x ≠ 0xF → (t.reg 0xF).toNat = (s.reg x).toNat / 128) ∧
      (∀ r, r ≠ x → r ≠ 0xF → t.reg r = s.reg r) ∧ t.pc = s.pc + 2 ∧ SameExcept [.v, .pc] s t)

/-- CXNN (R144): VX is the byte drawn, masked by NN; the draw is consumed. The byte is the model's free value
`Config.randomByte` at the number of draws so far (D14, entry 2), for every such number. -/
def Obligations.RandomByteIsMasked : Prop :=
  ∀ (s : State) (x : Nibble) (nn : Byte), ∃ t, exec (.rnd x nn) s = .next t ∧
    (∀ k, (t.reg x).getLsbD k = ((Config.randomByte s.draws).getLsbD k && nn.getLsbD k)) ∧
    (∀ r, r ≠ x → t.reg r = s.reg r) ∧ t.draws = s.draws + 1 ∧ t.pc = s.pc + 2 ∧ SameExcept [.v, .draws, .pc] s t

/-! ### Index register and memory -/

/-- ANNN and FX29 (R150, R152): I is NNN, or five times the whole byte VX; PC moves by 2; nothing else changes. -/
def Obligations.LoadIndexRegister : Prop :=
  (∀ (s : State) (nnn : Addr12), ∃ t, exec (.ldI nnn) s = .next t ∧ t.i.toNat = nnn.toNat ∧ t.pc = s.pc + 2 ∧
    SameExcept [.i, .pc] s t) ∧
  (∀ (s : State) (x : Nibble), ∃ t, exec (.ldF x) s = .next t ∧ t.i.toNat = (s.reg x).toNat * 5 ∧ t.pc = s.pc + 2 ∧
    SameExcept [.i, .pc] s t)

/-- FX1E (R151): I is the sum modulo 65536 (D11), VF is 1 if the exact sum is above 0xFFF, else 0, X = F included; no
other register changes. -/
def Obligations.AddToIndexRegister : Prop :=
  ∀ (s : State) (x : Nibble), ∃ t, exec (.addI x) s = .next t ∧
    t.i.toNat = (s.i.toNat + (s.reg x).toNat) % 65536 ∧
    t.reg 0xF = (if s.i.toNat + (s.reg x).toNat > 0xFFF then 1 else 0) ∧
    (∀ r, r ≠ 0xF → t.reg r = s.reg r) ∧ t.pc = s.pc + 2 ∧ SameExcept [.v, .i, .pc] s t

/-- FX33 (R153): with I at most 0xFFD the three decimal digits of VX stand at I, I+1, I+2 and every other address reads
as before; otherwise OutOfBounds(data, I+2) (D7). Memory is canonical, which every step keeps. -/
def Obligations.StoreDecimalDigits : Prop :=
  ∀ (s : State) (x : Nibble), s.mem.wf = true →
    (s.i.toNat + 2 ≤ 0xFFF → ∃ t, exec (.ldB x) s = .next t ∧
      (t.mem.read (s.ea 0)).toNat = (s.reg x).toNat / 100 ∧
      (t.mem.read (s.ea 1)).toNat = (s.reg x).toNat / 10 % 10 ∧
      (t.mem.read (s.ea 2)).toNat = (s.reg x).toNat % 10 ∧
      (∀ a, a < s.ea 0 ∨ s.ea 3 ≤ a → t.mem.read a = s.mem.read a) ∧ t.pc = s.pc + 2 ∧ SameExcept [.mem, .pc] s t) ∧
    (s.i.toNat + 2 > 0xFFF → exec (.ldB x) s = .fault (.outOfBoundsData (s.i.toNat + 2)))

/-- FX55 (R154): with I + X at most 0xFFF, V0 to VX stand at I to I+X and every other address reads as before; otherwise
OutOfBounds(data, I+X) (D7). Memory is canonical, which every step keeps. -/
def Obligations.StoreRegisters : Prop :=
  ∀ (s : State) (x : Nibble), s.mem.wf = true →
    (s.i.toNat + x.toNat ≤ 0xFFF → ∃ t, exec (.stRegs x) s = .next t ∧
      (∀ r : Nibble, r.toNat ≤ x.toNat → t.mem.read (s.ea r.toNat) = s.reg r) ∧
      (∀ a, a < s.ea 0 ∨ s.ea x.toNat < a → t.mem.read a = s.mem.read a) ∧ t.pc = s.pc + 2 ∧
      SameExcept [.mem, .pc] s t) ∧
    (s.i.toNat + x.toNat > 0xFFF → exec (.stRegs x) s = .fault (.outOfBoundsData (s.i.toNat + x.toNat)))

/-- FX65 (R155): with I + X at most 0xFFF, V0 to VX are the bytes at I to I+X and the registers above stand; otherwise
OutOfBounds(data, I+X) (D7). -/
def Obligations.LoadRegisters : Prop :=
  ∀ (s : State) (x : Nibble),
    (s.i.toNat + x.toNat ≤ 0xFFF → ∃ t, exec (.ldRegs x) s = .next t ∧
      (∀ r : Nibble, t.reg r = if r.toNat ≤ x.toNat then s.mem.read (s.ea r.toNat) else s.reg r) ∧ t.pc = s.pc + 2 ∧
      SameExcept [.v, .pc] s t) ∧
    (s.i.toNat + x.toNat > 0xFFF → exec (.ldRegs x) s = .fault (.outOfBoundsData (s.i.toNat + x.toNat)))

/-- FX55 and then FX65 with the same X, from any state with the memory and I the store left: the second completes and
V0 to VX are as before the first, whatever became of the registers, timers, keys and the rest in between (R157). -/
def Obligations.StoreThenLoadRestoresRegisters : Prop :=
  ∀ (s t w : State) (x : Nibble), s.mem.wf = true → exec (.stRegs x) s = .next t →
    (∀ a, w.mem.read a = t.mem.read a) → w.i = t.i →
    ∃ u, exec (.ldRegs x) w = .next u ∧ ∀ r : Nibble, r.toNat ≤ x.toNat → u.reg r = s.reg r

/-! ### Display -/

/-- 00E0 (R161): every cell is 0; VF and everything else but PC stands. -/
def Obligations.ClearScreen : Prop :=
  ∀ s : State, ∃ t, exec .cls s = .next t ∧ (∀ x y, Display.cell t.disp x y = false) ∧ t.pc = s.pc + 2 ∧
    SameExcept [.disp, .pc] s t

/-- DXYN (R162) with its sprite inside memory: every cell a 1 bit of the sprite falls on is toggled and no other (WRAP is
D5's, the orientation D16's); VF is 1 exactly if such a cell was on; no other register changes. With N = 0 nothing is
read (D26). A sprite that runs above 0xFFF raises OutOfBounds(data, I+N−1) (D7). -/
def Obligations.DrawTogglesCoveredCells : Prop :=
  ∀ (s : State) (x y n : Nibble),
    (n = 0 ∨ s.i.toNat + n.toNat - 1 ≤ 0xFFF →
      ∃ t, exec (.drw x y n) s = .next t ∧
        (∀ cx cy, Display.cell t.disp cx cy = true ↔
          ¬(Display.cell s.disp cx cy = true ↔ spriteCovers s.mem (s.ea 0) n.toNat (s.reg x) (s.reg y) cx cy)) ∧
        (t.reg 0xF = 1 ↔ ∃ cx cy, Display.cell s.disp cx cy = true ∧
          spriteCovers s.mem (s.ea 0) n.toNat (s.reg x) (s.reg y) cx cy) ∧
        (t.reg 0xF = 1 ∨ t.reg 0xF = 0) ∧ (∀ r, r ≠ 0xF → t.reg r = s.reg r) ∧ t.pc = s.pc + 2 ∧
        SameExcept [.disp, .v, .pc] s t) ∧
    (n ≠ 0 → s.i.toNat + n.toNat - 1 > 0xFFF →
      exec (.drw x y n) s = .fault (.outOfBoundsData (s.i.toNat + n.toNat - 1)))

/-- "Drawing the same sprite twice at the same place restores the display": a second draw, from any state with the display,
memory and I the first left and with the same coordinates, undoes the first, whatever became of the other registers, the
timers and the rest in between (R162). -/
def Obligations.DrawingTwiceRestoresDisplay : Prop :=
  ∀ (s t w : State) (x y n : Nibble), exec (.drw x y n) s = .next t →
    (∀ a, w.mem.read a = t.mem.read a) → w.i = t.i → w.disp = t.disp → w.reg x = s.reg x → w.reg y = s.reg y →
    ∃ u, exec (.drw x y n) w = .next u ∧ u.disp = s.disp

/-- The literal second half of R162's sentence, "the second draw reports VF = 1 iff the sprite has at least one 1 bit", for
every display: its own pseudocode does not give it when the first draw turned cells off (entry 18). -/
def Obligations.SecondDrawReportsEverySetBit : Prop :=
  ∀ (s t w u : State) (x y n : Nibble), exec (.drw x y n) s = .next t →
    (∀ a, w.mem.read a = t.mem.read a) → w.i = t.i → w.disp = t.disp → w.reg x = s.reg x → w.reg y = s.reg y →
    exec (.drw x y n) w = .next u →
    (u.reg 0xF = 1 ↔ ∃ r < n.toNat, s.mem.read (s.ea r) ≠ 0)

/-- A sprite inside the grid is drawn alike under both edge policies the document allows (R163). -/
def Obligations.EdgePoliciesAgreeInsideGrid : Prop :=
  ∀ (x0 y0 : Byte) (sprite : List Byte) (d : Display), x0.toNat ≤ 56 → y0.toNat + sprite.length ≤ 32 →
    drawSprite .wrap x0 y0 sprite d = drawSprite .clip x0 y0 sprite d

/-! ### Key wait and timers -/

/-- FX0A (R173): the mode is WAITING_FOR_KEY with X pending; PC, VX, the keys and everything else stand. -/
def Obligations.WaitForKeySuspends : Prop :=
  ∀ (s : State) (x : Nibble), ∃ t, exec (.ldVxK x) s = .next t ∧ t.mode = .waitingForKey ∧ t.waitReg = x ∧
    SameExcept [.mode] s t

/-- FX07, FX15, FX18 (R181, R182, R183): VX is DT, DT is VX, ST is VX; PC moves by 2; nothing else changes. -/
def Obligations.TimerMoves : Prop :=
  ∀ (s : State) (x : Nibble),
    (∃ t, exec (.ldVxDt x) s = .next t ∧ (∀ r, t.reg r = if r = x then s.dt else s.reg r) ∧ t.pc = s.pc + 2 ∧
      SameExcept [.v, .pc] s t) ∧
    (∃ t, exec (.ldDtVx x) s = .next t ∧ t.dt = s.reg x ∧ t.pc = s.pc + 2 ∧ SameExcept [.dt, .pc] s t) ∧
    (∃ t, exec (.ldStVx x) s = .next t ∧ t.st = s.reg x ∧ t.pc = s.pc + 2 ∧ SameExcept [.st, .pc] s t)

/-- A timer write is counted down in its own tick (R182, R183, R232): a tick of FX15 ends with DT one below VX, a tick of
FX18 with ST one below VX, and it signals the sound exactly when VX is 1. -/
def Obligations.TimerWriteCountsInItsTick : Prop :=
  ∀ (s : State) (x : Nibble), s.nextOp = .tick → s.mode = .running → s.pc.toNat ≤ 0xFFE →
    (decode (s.mem.read s.pc.toNat ++ s.mem.read (s.pc.toNat + 1)) = .ok (.ldDtVx x) →
      ∃ t, step s = .next t ∧ t.dt.toNat = (s.reg x).toNat - 1) ∧
    (decode (s.mem.read s.pc.toNat ++ s.mem.read (s.pc.toNat + 1)) = .ok (.ldStVx x) →
      ∃ t, step s = .next t ∧ t.st.toNat = (s.reg x).toNat - 1 ∧ (t.sound = true ↔ (s.reg x).toNat = 1))

/-! ### Whole-machine rules -/

/-- No instruction changes a state element its row does not name (R13, R36): only 00E0 and DXYN the display, only FX33 and
FX55 memory, only 2NNN and 00EE the stack, only ANNN, FX1E and FX29 the index register, only FX0A the mode, only FX15
and FX18 the timers, none the keys. That a row is complete is the spec's decision D25 (entry 25); the frame of the
storing forms, byte by byte, is in StoreDecimalDigits and StoreRegisters. -/
def Obligations.InstructionsChangeOnlyWhatTheyName : Prop :=
  ∀ (i : Instr) (s t : State), exec i s = .next t → SameExcept (elemsWritten i) s t

/-- No instruction changes a register outside its row of R22's table; VF only by the seven flag writers or as a named
destination (R22, R23). -/
def Obligations.InstructionsWriteOnlyTheirRegisters : Prop :=
  ∀ (i : Instr) (s t : State) (r : Nibble), exec i s = .next t → ¬ writesReg i r → t.reg r = s.reg r

/-- PC after every instruction that completes is the table of R26 (its return row is D2's). -/
def Obligations.ProgramCounterFollowsTable : Prop :=
  ∀ (i : Instr) (s t : State), exec i s = .next t → t.pc = pcAfter i s

/-- Only CXNN depends on the number of bytes drawn: any other instruction does the same whatever that number is, and keeps
it. The number is the model's own counter `draws`, by which it feeds CXNN its free byte (entry 2, a DESIGN CHOICE); R96 and
R98 know the byte only, not the counter, and a reading of the free value at a fixed number is not excluded here. -/
def Obligations.OnlyRandomDependsOnDraws : Prop :=
  ∀ (i : Instr) (s : State) (n : Nat), (∀ x nn, i ≠ .rnd x nn) →
    exec i (s.setDraws n) = match exec i s with
      | .next t => .next (t.setDraws n)
      | .fault f => .fault f
      | .refused r => .refused r

/-- Only EX9E and EXA1 read the key table (R170): any other instruction does the same whatever keys are down. -/
def Obligations.OnlyKeySkipsReadKeys : Prop :=
  ∀ (i : Instr) (s : State) (k : Nibble) (b : Bool), (∀ x, i ≠ .skp x) → (∀ x, i ≠ .sknp x) →
    exec i (s.setKey k b) = match exec i s with
      | .next t => .next (t.setKey k b)
      | .fault f => .fault f
      | .refused r => .refused r

/-! ### The host reads and wires, and the sequence of its operations -/

/-- The operations `display()` and `on_sound(callback)` complete and change nothing, and signal nothing (R105, R106; that
on_sound is wiring and no state is D27's, entry 26). What `display` reads is the display of the state. -/
def Obligations.DisplayAndOnSoundChangeNothing : Prop :=
  ∀ s : State, s.nextOp = .display ∨ s.nextOp = .onSound →
    ∃ t, step s = .next t ∧ SameExcept [.host] s t ∧ t.sound = false ∧ t.loadOpen = s.loadOpen ∧
      t.script = s.script.tail ∧ State.display t = s.disp

/-- A run is the host's sequence of operations, one a step: every step that completes, whatever its operation, leaves
exactly the rest of the sequence (R107; that the sequence is a list in the state is the model's choice, entry 1). -/
def Obligations.EveryStepTakesOneOperation : Prop :=
  ∀ s t : State, step s = .next t → t.script = s.script.tail
end

