-- ==== Sys2Proof/Laws/State.lean ====
section
/-! SUPPORT. One lemma per field per update, by rfl, so that no later proof unfolds a record update; then the register
and key accessors after each update. -/

namespace Sys2Proof.Machine.State

variable (s : State)

section setMem
variable (m : Memory)
@[simp] theorem setMem_mem : (s.setMem m).mem = m := rfl
@[simp] theorem setMem_v : (s.setMem m).v = s.v := rfl
@[simp] theorem setMem_i : (s.setMem m).i = s.i := rfl
@[simp] theorem setMem_pc : (s.setMem m).pc = s.pc := rfl
@[simp] theorem setMem_stack : (s.setMem m).stack = s.stack := rfl
@[simp] theorem setMem_depth : (s.setMem m).depth = s.depth := rfl
@[simp] theorem setMem_dt : (s.setMem m).dt = s.dt := rfl
@[simp] theorem setMem_st : (s.setMem m).st = s.st := rfl
@[simp] theorem setMem_disp : (s.setMem m).disp = s.disp := rfl
@[simp] theorem setMem_key : (s.setMem m).key = s.key := rfl
@[simp] theorem setMem_mode : (s.setMem m).mode = s.mode := rfl
@[simp] theorem setMem_waitReg : (s.setMem m).waitReg = s.waitReg := rfl
@[simp] theorem setMem_draws : (s.setMem m).draws = s.draws := rfl
@[simp] theorem setMem_sound : (s.setMem m).sound = s.sound := rfl
@[simp] theorem setMem_script : (s.setMem m).script = s.script := rfl
@[simp] theorem setMem_loadOpen : (s.setMem m).loadOpen = s.loadOpen := rfl
@[simp] theorem setMem_loadFault : (s.setMem m).loadFault = s.loadFault := rfl
@[simp] theorem setMem_reg (q : Nibble) : (s.setMem m).reg q = s.reg q := rfl
@[simp] theorem setMem_keyDown (q : Nibble) : (s.setMem m).keyDown q = s.keyDown q := rfl
end setMem

section setReg
variable (r : Nibble) (x : Byte)
@[simp] theorem setReg_mem : (s.setReg r x).mem = s.mem := rfl
@[simp] theorem setReg_v : (s.setReg r x).v = s.v.set r.toNat x r.isLt := rfl
@[simp] theorem setReg_i : (s.setReg r x).i = s.i := rfl
@[simp] theorem setReg_pc : (s.setReg r x).pc = s.pc := rfl
@[simp] theorem setReg_stack : (s.setReg r x).stack = s.stack := rfl
@[simp] theorem setReg_depth : (s.setReg r x).depth = s.depth := rfl
@[simp] theorem setReg_dt : (s.setReg r x).dt = s.dt := rfl
@[simp] theorem setReg_st : (s.setReg r x).st = s.st := rfl
@[simp] theorem setReg_disp : (s.setReg r x).disp = s.disp := rfl
@[simp] theorem setReg_key : (s.setReg r x).key = s.key := rfl
@[simp] theorem setReg_mode : (s.setReg r x).mode = s.mode := rfl
@[simp] theorem setReg_waitReg : (s.setReg r x).waitReg = s.waitReg := rfl
@[simp] theorem setReg_draws : (s.setReg r x).draws = s.draws := rfl
@[simp] theorem setReg_sound : (s.setReg r x).sound = s.sound := rfl
@[simp] theorem setReg_script : (s.setReg r x).script = s.script := rfl
@[simp] theorem setReg_loadOpen : (s.setReg r x).loadOpen = s.loadOpen := rfl
@[simp] theorem setReg_loadFault : (s.setReg r x).loadFault = s.loadFault := rfl
@[simp] theorem setReg_keyDown (q : Nibble) : (s.setReg r x).keyDown q = s.keyDown q := rfl
@[simp] theorem setReg_opcode : (s.setReg r x).opcode = s.opcode := rfl
end setReg

section setI
variable (w : Word)
@[simp] theorem setI_mem : (s.setI w).mem = s.mem := rfl
@[simp] theorem setI_v : (s.setI w).v = s.v := rfl
@[simp] theorem setI_i : (s.setI w).i = w := rfl
@[simp] theorem setI_pc : (s.setI w).pc = s.pc := rfl
@[simp] theorem setI_stack : (s.setI w).stack = s.stack := rfl
@[simp] theorem setI_depth : (s.setI w).depth = s.depth := rfl
@[simp] theorem setI_dt : (s.setI w).dt = s.dt := rfl
@[simp] theorem setI_st : (s.setI w).st = s.st := rfl
@[simp] theorem setI_disp : (s.setI w).disp = s.disp := rfl
@[simp] theorem setI_key : (s.setI w).key = s.key := rfl
@[simp] theorem setI_mode : (s.setI w).mode = s.mode := rfl
@[simp] theorem setI_waitReg : (s.setI w).waitReg = s.waitReg := rfl
@[simp] theorem setI_draws : (s.setI w).draws = s.draws := rfl
@[simp] theorem setI_sound : (s.setI w).sound = s.sound := rfl
@[simp] theorem setI_script : (s.setI w).script = s.script := rfl
@[simp] theorem setI_loadOpen : (s.setI w).loadOpen = s.loadOpen := rfl
@[simp] theorem setI_loadFault : (s.setI w).loadFault = s.loadFault := rfl
@[simp] theorem setI_reg (q : Nibble) : (s.setI w).reg q = s.reg q := rfl
@[simp] theorem setI_keyDown (q : Nibble) : (s.setI w).keyDown q = s.keyDown q := rfl
@[simp] theorem setI_opcode : (s.setI w).opcode = s.opcode := rfl
end setI

section setPc
variable (w : Word)
@[simp] theorem setPc_mem : (s.setPc w).mem = s.mem := rfl
@[simp] theorem setPc_v : (s.setPc w).v = s.v := rfl
@[simp] theorem setPc_i : (s.setPc w).i = s.i := rfl
@[simp] theorem setPc_pc : (s.setPc w).pc = w := rfl
@[simp] theorem setPc_stack : (s.setPc w).stack = s.stack := rfl
@[simp] theorem setPc_depth : (s.setPc w).depth = s.depth := rfl
@[simp] theorem setPc_dt : (s.setPc w).dt = s.dt := rfl
@[simp] theorem setPc_st : (s.setPc w).st = s.st := rfl
@[simp] theorem setPc_disp : (s.setPc w).disp = s.disp := rfl
@[simp] theorem setPc_key : (s.setPc w).key = s.key := rfl
@[simp] theorem setPc_mode : (s.setPc w).mode = s.mode := rfl
@[simp] theorem setPc_waitReg : (s.setPc w).waitReg = s.waitReg := rfl
@[simp] theorem setPc_draws : (s.setPc w).draws = s.draws := rfl
@[simp] theorem setPc_sound : (s.setPc w).sound = s.sound := rfl
@[simp] theorem setPc_script : (s.setPc w).script = s.script := rfl
@[simp] theorem setPc_loadOpen : (s.setPc w).loadOpen = s.loadOpen := rfl
@[simp] theorem setPc_loadFault : (s.setPc w).loadFault = s.loadFault := rfl
@[simp] theorem setPc_reg (q : Nibble) : (s.setPc w).reg q = s.reg q := rfl
@[simp] theorem setPc_keyDown (q : Nibble) : (s.setPc w).keyDown q = s.keyDown q := rfl
end setPc

section setStack
variable (k : Vector Word 16) (d : Fin 17)
@[simp] theorem setStack_mem : (s.setStack k d).mem = s.mem := rfl
@[simp] theorem setStack_v : (s.setStack k d).v = s.v := rfl
@[simp] theorem setStack_i : (s.setStack k d).i = s.i := rfl
@[simp] theorem setStack_pc : (s.setStack k d).pc = s.pc := rfl
@[simp] theorem setStack_stack : (s.setStack k d).stack = k := rfl
@[simp] theorem setStack_depth : (s.setStack k d).depth = d := rfl
@[simp] theorem setStack_dt : (s.setStack k d).dt = s.dt := rfl
@[simp] theorem setStack_st : (s.setStack k d).st = s.st := rfl
@[simp] theorem setStack_disp : (s.setStack k d).disp = s.disp := rfl
@[simp] theorem setStack_key : (s.setStack k d).key = s.key := rfl
@[simp] theorem setStack_mode : (s.setStack k d).mode = s.mode := rfl
@[simp] theorem setStack_waitReg : (s.setStack k d).waitReg = s.waitReg := rfl
@[simp] theorem setStack_draws : (s.setStack k d).draws = s.draws := rfl
@[simp] theorem setStack_sound : (s.setStack k d).sound = s.sound := rfl
@[simp] theorem setStack_script : (s.setStack k d).script = s.script := rfl
@[simp] theorem setStack_loadOpen : (s.setStack k d).loadOpen = s.loadOpen := rfl
@[simp] theorem setStack_loadFault : (s.setStack k d).loadFault = s.loadFault := rfl
@[simp] theorem setStack_reg (q : Nibble) : (s.setStack k d).reg q = s.reg q := rfl
@[simp] theorem setStack_keyDown (q : Nibble) : (s.setStack k d).keyDown q = s.keyDown q := rfl
@[simp] theorem setStack_opcode : (s.setStack k d).opcode = s.opcode := rfl
end setStack

section setDt
variable (x : Byte)
@[simp] theorem setDt_mem : (s.setDt x).mem = s.mem := rfl
@[simp] theorem setDt_v : (s.setDt x).v = s.v := rfl
@[simp] theorem setDt_i : (s.setDt x).i = s.i := rfl
@[simp] theorem setDt_pc : (s.setDt x).pc = s.pc := rfl
@[simp] theorem setDt_stack : (s.setDt x).stack = s.stack := rfl
@[simp] theorem setDt_depth : (s.setDt x).depth = s.depth := rfl
@[simp] theorem setDt_dt : (s.setDt x).dt = x := rfl
@[simp] theorem setDt_st : (s.setDt x).st = s.st := rfl
@[simp] theorem setDt_disp : (s.setDt x).disp = s.disp := rfl
@[simp] theorem setDt_key : (s.setDt x).key = s.key := rfl
@[simp] theorem setDt_mode : (s.setDt x).mode = s.mode := rfl
@[simp] theorem setDt_waitReg : (s.setDt x).waitReg = s.waitReg := rfl
@[simp] theorem setDt_draws : (s.setDt x).draws = s.draws := rfl
@[simp] theorem setDt_sound : (s.setDt x).sound = s.sound := rfl
@[simp] theorem setDt_script : (s.setDt x).script = s.script := rfl
@[simp] theorem setDt_loadOpen : (s.setDt x).loadOpen = s.loadOpen := rfl
@[simp] theorem setDt_loadFault : (s.setDt x).loadFault = s.loadFault := rfl
@[simp] theorem setDt_reg (q : Nibble) : (s.setDt x).reg q = s.reg q := rfl
@[simp] theorem setDt_keyDown (q : Nibble) : (s.setDt x).keyDown q = s.keyDown q := rfl
@[simp] theorem setDt_opcode : (s.setDt x).opcode = s.opcode := rfl
end setDt

section setSt
variable (x : Byte)
@[simp] theorem setSt_mem : (s.setSt x).mem = s.mem := rfl
@[simp] theorem setSt_v : (s.setSt x).v = s.v := rfl
@[simp] theorem setSt_i : (s.setSt x).i = s.i := rfl
@[simp] theorem setSt_pc : (s.setSt x).pc = s.pc := rfl
@[simp] theorem setSt_stack : (s.setSt x).stack = s.stack := rfl
@[simp] theorem setSt_depth : (s.setSt x).depth = s.depth := rfl
@[simp] theorem setSt_dt : (s.setSt x).dt = s.dt := rfl
@[simp] theorem setSt_st : (s.setSt x).st = x := rfl
@[simp] theorem setSt_disp : (s.setSt x).disp = s.disp := rfl
@[simp] theorem setSt_key : (s.setSt x).key = s.key := rfl
@[simp] theorem setSt_mode : (s.setSt x).mode = s.mode := rfl
@[simp] theorem setSt_waitReg : (s.setSt x).waitReg = s.waitReg := rfl
@[simp] theorem setSt_draws : (s.setSt x).draws = s.draws := rfl
@[simp] theorem setSt_sound : (s.setSt x).sound = s.sound := rfl
@[simp] theorem setSt_script : (s.setSt x).script = s.script := rfl
@[simp] theorem setSt_loadOpen : (s.setSt x).loadOpen = s.loadOpen := rfl
@[simp] theorem setSt_loadFault : (s.setSt x).loadFault = s.loadFault := rfl
@[simp] theorem setSt_reg (q : Nibble) : (s.setSt x).reg q = s.reg q := rfl
@[simp] theorem setSt_keyDown (q : Nibble) : (s.setSt x).keyDown q = s.keyDown q := rfl
@[simp] theorem setSt_opcode : (s.setSt x).opcode = s.opcode := rfl
end setSt

section setDisp
variable (d : Display)
@[simp] theorem setDisp_mem : (s.setDisp d).mem = s.mem := rfl
@[simp] theorem setDisp_v : (s.setDisp d).v = s.v := rfl
@[simp] theorem setDisp_i : (s.setDisp d).i = s.i := rfl
@[simp] theorem setDisp_pc : (s.setDisp d).pc = s.pc := rfl
@[simp] theorem setDisp_stack : (s.setDisp d).stack = s.stack := rfl
@[simp] theorem setDisp_depth : (s.setDisp d).depth = s.depth := rfl
@[simp] theorem setDisp_dt : (s.setDisp d).dt = s.dt := rfl
@[simp] theorem setDisp_st : (s.setDisp d).st = s.st := rfl
@[simp] theorem setDisp_disp : (s.setDisp d).disp = d := rfl
@[simp] theorem setDisp_key : (s.setDisp d).key = s.key := rfl
@[simp] theorem setDisp_mode : (s.setDisp d).mode = s.mode := rfl
@[simp] theorem setDisp_waitReg : (s.setDisp d).waitReg = s.waitReg := rfl
@[simp] theorem setDisp_draws : (s.setDisp d).draws = s.draws := rfl
@[simp] theorem setDisp_sound : (s.setDisp d).sound = s.sound := rfl
@[simp] theorem setDisp_script : (s.setDisp d).script = s.script := rfl
@[simp] theorem setDisp_loadOpen : (s.setDisp d).loadOpen = s.loadOpen := rfl
@[simp] theorem setDisp_loadFault : (s.setDisp d).loadFault = s.loadFault := rfl
@[simp] theorem setDisp_reg (q : Nibble) : (s.setDisp d).reg q = s.reg q := rfl
@[simp] theorem setDisp_keyDown (q : Nibble) : (s.setDisp d).keyDown q = s.keyDown q := rfl
@[simp] theorem setDisp_opcode : (s.setDisp d).opcode = s.opcode := rfl
end setDisp

section setKey
variable (k : Nibble) (b : Bool)
@[simp] theorem setKey_mem : (s.setKey k b).mem = s.mem := rfl
@[simp] theorem setKey_v : (s.setKey k b).v = s.v := rfl
@[simp] theorem setKey_i : (s.setKey k b).i = s.i := rfl
@[simp] theorem setKey_pc : (s.setKey k b).pc = s.pc := rfl
@[simp] theorem setKey_stack : (s.setKey k b).stack = s.stack := rfl
@[simp] theorem setKey_depth : (s.setKey k b).depth = s.depth := rfl
@[simp] theorem setKey_dt : (s.setKey k b).dt = s.dt := rfl
@[simp] theorem setKey_st : (s.setKey k b).st = s.st := rfl
@[simp] theorem setKey_disp : (s.setKey k b).disp = s.disp := rfl
@[simp] theorem setKey_key : (s.setKey k b).key = s.key.set k.toNat b k.isLt := rfl
@[simp] theorem setKey_mode : (s.setKey k b).mode = s.mode := rfl
@[simp] theorem setKey_waitReg : (s.setKey k b).waitReg = s.waitReg := rfl
@[simp] theorem setKey_draws : (s.setKey k b).draws = s.draws := rfl
@[simp] theorem setKey_sound : (s.setKey k b).sound = s.sound := rfl
@[simp] theorem setKey_script : (s.setKey k b).script = s.script := rfl
@[simp] theorem setKey_loadOpen : (s.setKey k b).loadOpen = s.loadOpen := rfl
@[simp] theorem setKey_loadFault : (s.setKey k b).loadFault = s.loadFault := rfl
@[simp] theorem setKey_reg (q : Nibble) : (s.setKey k b).reg q = s.reg q := rfl
@[simp] theorem setKey_opcode : (s.setKey k b).opcode = s.opcode := rfl
end setKey

section setMode
variable (m : Mode)
@[simp] theorem setMode_mem : (s.setMode m).mem = s.mem := rfl
@[simp] theorem setMode_v : (s.setMode m).v = s.v := rfl
@[simp] theorem setMode_i : (s.setMode m).i = s.i := rfl
@[simp] theorem setMode_pc : (s.setMode m).pc = s.pc := rfl
@[simp] theorem setMode_stack : (s.setMode m).stack = s.stack := rfl
@[simp] theorem setMode_depth : (s.setMode m).depth = s.depth := rfl
@[simp] theorem setMode_dt : (s.setMode m).dt = s.dt := rfl
@[simp] theorem setMode_st : (s.setMode m).st = s.st := rfl
@[simp] theorem setMode_disp : (s.setMode m).disp = s.disp := rfl
@[simp] theorem setMode_key : (s.setMode m).key = s.key := rfl
@[simp] theorem setMode_mode : (s.setMode m).mode = m := rfl
@[simp] theorem setMode_waitReg : (s.setMode m).waitReg = s.waitReg := rfl
@[simp] theorem setMode_draws : (s.setMode m).draws = s.draws := rfl
@[simp] theorem setMode_sound : (s.setMode m).sound = s.sound := rfl
@[simp] theorem setMode_script : (s.setMode m).script = s.script := rfl
@[simp] theorem setMode_loadOpen : (s.setMode m).loadOpen = s.loadOpen := rfl
@[simp] theorem setMode_loadFault : (s.setMode m).loadFault = s.loadFault := rfl
@[simp] theorem setMode_reg (q : Nibble) : (s.setMode m).reg q = s.reg q := rfl
@[simp] theorem setMode_keyDown (q : Nibble) : (s.setMode m).keyDown q = s.keyDown q := rfl
@[simp] theorem setMode_opcode : (s.setMode m).opcode = s.opcode := rfl
end setMode

section setWaitReg
variable (r : Nibble)
@[simp] theorem setWaitReg_mem : (s.setWaitReg r).mem = s.mem := rfl
@[simp] theorem setWaitReg_v : (s.setWaitReg r).v = s.v := rfl
@[simp] theorem setWaitReg_i : (s.setWaitReg r).i = s.i := rfl
@[simp] theorem setWaitReg_pc : (s.setWaitReg r).pc = s.pc := rfl
@[simp] theorem setWaitReg_stack : (s.setWaitReg r).stack = s.stack := rfl
@[simp] theorem setWaitReg_depth : (s.setWaitReg r).depth = s.depth := rfl
@[simp] theorem setWaitReg_dt : (s.setWaitReg r).dt = s.dt := rfl
@[simp] theorem setWaitReg_st : (s.setWaitReg r).st = s.st := rfl
@[simp] theorem setWaitReg_disp : (s.setWaitReg r).disp = s.disp := rfl
@[simp] theorem setWaitReg_key : (s.setWaitReg r).key = s.key := rfl
@[simp] theorem setWaitReg_mode : (s.setWaitReg r).mode = s.mode := rfl
@[simp] theorem setWaitReg_waitReg : (s.setWaitReg r).waitReg = r := rfl
@[simp] theorem setWaitReg_draws : (s.setWaitReg r).draws = s.draws := rfl
@[simp] theorem setWaitReg_sound : (s.setWaitReg r).sound = s.sound := rfl
@[simp] theorem setWaitReg_script : (s.setWaitReg r).script = s.script := rfl
@[simp] theorem setWaitReg_loadOpen : (s.setWaitReg r).loadOpen = s.loadOpen := rfl
@[simp] theorem setWaitReg_loadFault : (s.setWaitReg r).loadFault = s.loadFault := rfl
@[simp] theorem setWaitReg_reg (q : Nibble) : (s.setWaitReg r).reg q = s.reg q := rfl
@[simp] theorem setWaitReg_keyDown (q : Nibble) : (s.setWaitReg r).keyDown q = s.keyDown q := rfl
@[simp] theorem setWaitReg_opcode : (s.setWaitReg r).opcode = s.opcode := rfl
end setWaitReg

section setDraws
variable (n : Nat)
@[simp] theorem setDraws_mem : (s.setDraws n).mem = s.mem := rfl
@[simp] theorem setDraws_v : (s.setDraws n).v = s.v := rfl
@[simp] theorem setDraws_i : (s.setDraws n).i = s.i := rfl
@[simp] theorem setDraws_pc : (s.setDraws n).pc = s.pc := rfl
@[simp] theorem setDraws_stack : (s.setDraws n).stack = s.stack := rfl
@[simp] theorem setDraws_depth : (s.setDraws n).depth = s.depth := rfl
@[simp] theorem setDraws_dt : (s.setDraws n).dt = s.dt := rfl
@[simp] theorem setDraws_st : (s.setDraws n).st = s.st := rfl
@[simp] theorem setDraws_disp : (s.setDraws n).disp = s.disp := rfl
@[simp] theorem setDraws_key : (s.setDraws n).key = s.key := rfl
@[simp] theorem setDraws_mode : (s.setDraws n).mode = s.mode := rfl
@[simp] theorem setDraws_waitReg : (s.setDraws n).waitReg = s.waitReg := rfl
@[simp] theorem setDraws_draws : (s.setDraws n).draws = n := rfl
@[simp] theorem setDraws_sound : (s.setDraws n).sound = s.sound := rfl
@[simp] theorem setDraws_script : (s.setDraws n).script = s.script := rfl
@[simp] theorem setDraws_loadOpen : (s.setDraws n).loadOpen = s.loadOpen := rfl
@[simp] theorem setDraws_loadFault : (s.setDraws n).loadFault = s.loadFault := rfl
@[simp] theorem setDraws_reg (q : Nibble) : (s.setDraws n).reg q = s.reg q := rfl
@[simp] theorem setDraws_keyDown (q : Nibble) : (s.setDraws n).keyDown q = s.keyDown q := rfl
@[simp] theorem setDraws_opcode : (s.setDraws n).opcode = s.opcode := rfl
end setDraws

section setSound
variable (b : Bool)
@[simp] theorem setSound_mem : (s.setSound b).mem = s.mem := rfl
@[simp] theorem setSound_v : (s.setSound b).v = s.v := rfl
@[simp] theorem setSound_i : (s.setSound b).i = s.i := rfl
@[simp] theorem setSound_pc : (s.setSound b).pc = s.pc := rfl
@[simp] theorem setSound_stack : (s.setSound b).stack = s.stack := rfl
@[simp] theorem setSound_depth : (s.setSound b).depth = s.depth := rfl
@[simp] theorem setSound_dt : (s.setSound b).dt = s.dt := rfl
@[simp] theorem setSound_st : (s.setSound b).st = s.st := rfl
@[simp] theorem setSound_disp : (s.setSound b).disp = s.disp := rfl
@[simp] theorem setSound_key : (s.setSound b).key = s.key := rfl
@[simp] theorem setSound_mode : (s.setSound b).mode = s.mode := rfl
@[simp] theorem setSound_waitReg : (s.setSound b).waitReg = s.waitReg := rfl
@[simp] theorem setSound_draws : (s.setSound b).draws = s.draws := rfl
@[simp] theorem setSound_sound : (s.setSound b).sound = b := rfl
@[simp] theorem setSound_script : (s.setSound b).script = s.script := rfl
@[simp] theorem setSound_loadOpen : (s.setSound b).loadOpen = s.loadOpen := rfl
@[simp] theorem setSound_loadFault : (s.setSound b).loadFault = s.loadFault := rfl
@[simp] theorem setSound_reg (q : Nibble) : (s.setSound b).reg q = s.reg q := rfl
@[simp] theorem setSound_keyDown (q : Nibble) : (s.setSound b).keyDown q = s.keyDown q := rfl
@[simp] theorem setSound_opcode : (s.setSound b).opcode = s.opcode := rfl
end setSound

section setScript
variable (l : List HostOp)
@[simp] theorem setScript_mem : (s.setScript l).mem = s.mem := rfl
@[simp] theorem setScript_v : (s.setScript l).v = s.v := rfl
@[simp] theorem setScript_i : (s.setScript l).i = s.i := rfl
@[simp] theorem setScript_pc : (s.setScript l).pc = s.pc := rfl
@[simp] theorem setScript_stack : (s.setScript l).stack = s.stack := rfl
@[simp] theorem setScript_depth : (s.setScript l).depth = s.depth := rfl
@[simp] theorem setScript_dt : (s.setScript l).dt = s.dt := rfl
@[simp] theorem setScript_st : (s.setScript l).st = s.st := rfl
@[simp] theorem setScript_disp : (s.setScript l).disp = s.disp := rfl
@[simp] theorem setScript_key : (s.setScript l).key = s.key := rfl
@[simp] theorem setScript_mode : (s.setScript l).mode = s.mode := rfl
@[simp] theorem setScript_waitReg : (s.setScript l).waitReg = s.waitReg := rfl
@[simp] theorem setScript_draws : (s.setScript l).draws = s.draws := rfl
@[simp] theorem setScript_sound : (s.setScript l).sound = s.sound := rfl
@[simp] theorem setScript_script : (s.setScript l).script = l := rfl
@[simp] theorem setScript_loadOpen : (s.setScript l).loadOpen = s.loadOpen := rfl
@[simp] theorem setScript_loadFault : (s.setScript l).loadFault = s.loadFault := rfl
@[simp] theorem setScript_reg (q : Nibble) : (s.setScript l).reg q = s.reg q := rfl
@[simp] theorem setScript_keyDown (q : Nibble) : (s.setScript l).keyDown q = s.keyDown q := rfl
@[simp] theorem setScript_opcode : (s.setScript l).opcode = s.opcode := rfl
end setScript

section setLoadOpen
variable (b : Bool)
@[simp] theorem setLoadOpen_mem : (s.setLoadOpen b).mem = s.mem := rfl
@[simp] theorem setLoadOpen_v : (s.setLoadOpen b).v = s.v := rfl
@[simp] theorem setLoadOpen_i : (s.setLoadOpen b).i = s.i := rfl
@[simp] theorem setLoadOpen_pc : (s.setLoadOpen b).pc = s.pc := rfl
@[simp] theorem setLoadOpen_stack : (s.setLoadOpen b).stack = s.stack := rfl
@[simp] theorem setLoadOpen_depth : (s.setLoadOpen b).depth = s.depth := rfl
@[simp] theorem setLoadOpen_dt : (s.setLoadOpen b).dt = s.dt := rfl
@[simp] theorem setLoadOpen_st : (s.setLoadOpen b).st = s.st := rfl
@[simp] theorem setLoadOpen_disp : (s.setLoadOpen b).disp = s.disp := rfl
@[simp] theorem setLoadOpen_key : (s.setLoadOpen b).key = s.key := rfl
@[simp] theorem setLoadOpen_mode : (s.setLoadOpen b).mode = s.mode := rfl
@[simp] theorem setLoadOpen_waitReg : (s.setLoadOpen b).waitReg = s.waitReg := rfl
@[simp] theorem setLoadOpen_draws : (s.setLoadOpen b).draws = s.draws := rfl
@[simp] theorem setLoadOpen_sound : (s.setLoadOpen b).sound = s.sound := rfl
@[simp] theorem setLoadOpen_script : (s.setLoadOpen b).script = s.script := rfl
@[simp] theorem setLoadOpen_loadOpen : (s.setLoadOpen b).loadOpen = b := rfl
@[simp] theorem setLoadOpen_loadFault : (s.setLoadOpen b).loadFault = s.loadFault := rfl
@[simp] theorem setLoadOpen_reg (q : Nibble) : (s.setLoadOpen b).reg q = s.reg q := rfl
@[simp] theorem setLoadOpen_keyDown (q : Nibble) : (s.setLoadOpen b).keyDown q = s.keyDown q := rfl
@[simp] theorem setLoadOpen_opcode : (s.setLoadOpen b).opcode = s.opcode := rfl
end setLoadOpen

section setLoadFault
variable (f : Option Fault)
@[simp] theorem setLoadFault_mem : (s.setLoadFault f).mem = s.mem := rfl
@[simp] theorem setLoadFault_v : (s.setLoadFault f).v = s.v := rfl
@[simp] theorem setLoadFault_i : (s.setLoadFault f).i = s.i := rfl
@[simp] theorem setLoadFault_pc : (s.setLoadFault f).pc = s.pc := rfl
@[simp] theorem setLoadFault_stack : (s.setLoadFault f).stack = s.stack := rfl
@[simp] theorem setLoadFault_depth : (s.setLoadFault f).depth = s.depth := rfl
@[simp] theorem setLoadFault_dt : (s.setLoadFault f).dt = s.dt := rfl
@[simp] theorem setLoadFault_st : (s.setLoadFault f).st = s.st := rfl
@[simp] theorem setLoadFault_disp : (s.setLoadFault f).disp = s.disp := rfl
@[simp] theorem setLoadFault_key : (s.setLoadFault f).key = s.key := rfl
@[simp] theorem setLoadFault_mode : (s.setLoadFault f).mode = s.mode := rfl
@[simp] theorem setLoadFault_waitReg : (s.setLoadFault f).waitReg = s.waitReg := rfl
@[simp] theorem setLoadFault_draws : (s.setLoadFault f).draws = s.draws := rfl
@[simp] theorem setLoadFault_sound : (s.setLoadFault f).sound = s.sound := rfl
@[simp] theorem setLoadFault_script : (s.setLoadFault f).script = s.script := rfl
@[simp] theorem setLoadFault_loadOpen : (s.setLoadFault f).loadOpen = s.loadOpen := rfl
@[simp] theorem setLoadFault_loadFault : (s.setLoadFault f).loadFault = f := rfl
@[simp] theorem setLoadFault_reg (q : Nibble) : (s.setLoadFault f).reg q = s.reg q := rfl
@[simp] theorem setLoadFault_keyDown (q : Nibble) : (s.setLoadFault f).keyDown q = s.keyDown q := rfl
@[simp] theorem setLoadFault_opcode : (s.setLoadFault f).opcode = s.opcode := rfl
end setLoadFault

/-- Reading a register after a register write. -/
@[simp] theorem setReg_reg (r q : Nibble) (x : Byte) : (s.setReg r x).reg q = if q = r then x else s.reg q := by
  simp only [reg, setReg, Vector.getElem_set, BitVec.toNat_inj, eq_comm]

/-- Reading a key after a key event. -/
@[simp] theorem setKey_keyDown (k q : Nibble) (b : Bool) :
    (s.setKey k b).keyDown q = if q = k then b else s.keyDown q := by
  simp only [keyDown, setKey, Vector.getElem_set, BitVec.toNat_inj, eq_comm]

section advance
@[simp] theorem advance_mem : (s.advance).mem = s.mem := rfl
@[simp] theorem advance_v : (s.advance).v = s.v := rfl
@[simp] theorem advance_i : (s.advance).i = s.i := rfl
@[simp] theorem advance_pc : (s.advance).pc = s.pc + 2 := rfl
@[simp] theorem advance_stack : (s.advance).stack = s.stack := rfl
@[simp] theorem advance_depth : (s.advance).depth = s.depth := rfl
@[simp] theorem advance_dt : (s.advance).dt = s.dt := rfl
@[simp] theorem advance_st : (s.advance).st = s.st := rfl
@[simp] theorem advance_disp : (s.advance).disp = s.disp := rfl
@[simp] theorem advance_key : (s.advance).key = s.key := rfl
@[simp] theorem advance_mode : (s.advance).mode = s.mode := rfl
@[simp] theorem advance_waitReg : (s.advance).waitReg = s.waitReg := rfl
@[simp] theorem advance_draws : (s.advance).draws = s.draws := rfl
@[simp] theorem advance_sound : (s.advance).sound = s.sound := rfl
@[simp] theorem advance_script : (s.advance).script = s.script := rfl
@[simp] theorem advance_loadOpen : (s.advance).loadOpen = s.loadOpen := rfl
@[simp] theorem advance_loadFault : (s.advance).loadFault = s.loadFault := rfl
@[simp] theorem advance_reg (q : Nibble) : (s.advance).reg q = s.reg q := rfl
@[simp] theorem advance_keyDown (q : Nibble) : (s.advance).keyDown q = s.keyDown q := rfl
end advance

section skipIf
variable (c : Bool)
@[simp] theorem skipIf_mem : (s.skipIf c).mem = s.mem := rfl
@[simp] theorem skipIf_v : (s.skipIf c).v = s.v := rfl
@[simp] theorem skipIf_i : (s.skipIf c).i = s.i := rfl
@[simp] theorem skipIf_pc : (s.skipIf c).pc = if c then s.pc + 4 else s.pc + 2 := rfl
@[simp] theorem skipIf_stack : (s.skipIf c).stack = s.stack := rfl
@[simp] theorem skipIf_depth : (s.skipIf c).depth = s.depth := rfl
@[simp] theorem skipIf_dt : (s.skipIf c).dt = s.dt := rfl
@[simp] theorem skipIf_st : (s.skipIf c).st = s.st := rfl
@[simp] theorem skipIf_disp : (s.skipIf c).disp = s.disp := rfl
@[simp] theorem skipIf_key : (s.skipIf c).key = s.key := rfl
@[simp] theorem skipIf_mode : (s.skipIf c).mode = s.mode := rfl
@[simp] theorem skipIf_waitReg : (s.skipIf c).waitReg = s.waitReg := rfl
@[simp] theorem skipIf_draws : (s.skipIf c).draws = s.draws := rfl
@[simp] theorem skipIf_sound : (s.skipIf c).sound = s.sound := rfl
@[simp] theorem skipIf_script : (s.skipIf c).script = s.script := rfl
@[simp] theorem skipIf_loadOpen : (s.skipIf c).loadOpen = s.loadOpen := rfl
@[simp] theorem skipIf_loadFault : (s.skipIf c).loadFault = s.loadFault := rfl
@[simp] theorem skipIf_reg (q : Nibble) : (s.skipIf c).reg q = s.reg q := rfl
@[simp] theorem skipIf_keyDown (q : Nibble) : (s.skipIf c).keyDown q = s.keyDown q := rfl
end skipIf

end Sys2Proof.Machine.State
end

