-- ==== Sys2Proof/Laws/Memory.lean ====
section
/-! SUPPORT. The laws of memory: reading after writing, and that every memory operation keeps the canonical form. -/

namespace Sys2Proof.Machine.Memory

theorem wfFrom_mono {lo lo' : Nat} {m : Memory} (h : lo' ≤ lo) (w : wfFrom lo m = true) : wfFrom lo' m = true := by
  cases m with
  | nil => rfl
  | cons c rest => simp only [wfFrom, Bool.and_eq_true, decide_eq_true_eq] at w ⊢; exact ⟨⟨⟨by omega, w.1.1.2⟩, w.1.2⟩, w.2⟩

/-- In a canonical memory from `lo`, an address below `lo` is unlisted. -/
theorem read_of_lt_wfFrom {lo a : Nat} {m : Memory} (w : wfFrom lo m = true) (h : a < lo) : read m a = blank a := by
  induction m generalizing lo with
  | nil => rfl
  | cons c rest ih =>
    simp only [wfFrom, Bool.and_eq_true, decide_eq_true_eq] at w
    rw [read, if_neg (by omega)]
    exact ih w.2 (by omega)

theorem read_cons {lo a b : Nat} {x : Byte} {rest : Memory} (w : wfFrom lo rest = true) (h : a < lo) :
    read (cons a x rest) b = if b = a then x else read rest b := by
  unfold cons
  split
  · rename_i hx
    by_cases hb : b = a
    · simp [hb, hx, read_of_lt_wfFrom w h]
    · simp [hb]
  · rfl

theorem read_write_from {lo a b : Nat} {x : Byte} {m : Memory} (w : wfFrom lo m = true) :
    read (write m a x) b = if b = a then x else read m b := by
  induction m generalizing lo with
  | nil => exact read_cons (lo := a + 1) rfl (by omega)
  | cons c rest ih =>
    simp only [wfFrom, Bool.and_eq_true, decide_eq_true_eq] at w
    unfold write
    split
    · rename_i ha
      exact read_cons (lo := c.1) (by simp [wfFrom, w.1.1.2, w.1.2, w.2]) ha
    split
    · rename_i ha
      rw [read_cons (lo := c.1 + 1) w.2 (by omega)]
      by_cases hb : b = a <;> simp [hb, read, ← ha]
    · rename_i ha
      simp only [read, ih w.2]
      by_cases hb : b = c.1
      · rw [if_pos hb, if_neg (by omega), if_pos hb]
      · rw [if_neg hb, if_neg hb]

/-- A read after a write: the value written at that address, the old value elsewhere. -/
theorem read_write {a b : Nat} {x : Byte} {m : Memory} (w : m.wf = true) :
    (m.write a x).read b = if b = a then x else m.read b := read_write_from w

/-- A write leaves every other address alone, in any memory. -/
theorem read_write_of_ne {a b : Nat} {x : Byte} {m : Memory} (h : b ≠ a) : (m.write a x).read b = m.read b := by
  induction m with
  | nil => simp only [write, cons]; split <;> simp [read, h]
  | cons c rest ih =>
    simp only [write, cons]
    split
    · split <;> simp [read, h]
    split
    · split <;> simp_all [read]
    · simp only [read, ih]

theorem wfFrom_cons {lo a : Nat} {x : Byte} {rest : Memory} (w : wfFrom (a + 1) rest = true) (hl : lo ≤ a)
    (ha : a < Config.memSize) : wfFrom lo (cons a x rest) = true := by
  unfold cons
  split
  · exact wfFrom_mono (by omega) w
  · rename_i hx; simp [wfFrom, hl, ha, hx, w]

theorem wfFrom_write {lo a : Nat} {x : Byte} {m : Memory} (w : wfFrom lo m = true) (hl : lo ≤ a)
    (ha : a < Config.memSize) : wfFrom lo (write m a x) = true := by
  induction m generalizing lo with
  | nil => exact wfFrom_cons rfl hl ha
  | cons c rest ih =>
    simp only [wfFrom, Bool.and_eq_true, decide_eq_true_eq] at w
    unfold write
    split
    · exact wfFrom_cons (by simp only [wfFrom, Bool.and_eq_true, decide_eq_true_eq]; exact ⟨⟨⟨by omega, w.1.1.2⟩, w.1.2⟩, w.2⟩) hl ha
    split
    · rename_i he; exact wfFrom_cons (he ▸ w.2) hl ha
    · simp only [wfFrom, Bool.and_eq_true, decide_eq_true_eq]; exact ⟨w.1, ih w.2 (by omega)⟩

/-- A write inside the address space keeps the canonical form. -/
theorem wf_write {a : Nat} {x : Byte} {m : Memory} (w : m.wf = true) (ha : a < 4096) : (m.write a x).wf = true :=
  wfFrom_write w (Nat.zero_le a) ha

/-- Writing bytes inside the address space keeps the canonical form. -/
theorem wf_writeBytes {a : Nat} {xs : List Byte} {m : Memory} (w : m.wf = true) (ha : a + xs.length ≤ 4096) :
    (m.writeBytes a xs).wf = true := by
  induction xs generalizing a m with
  | nil => exact w
  | cons x xs ih =>
    simp only [List.length_cons] at ha
    exact ih (wf_write w (by omega)) (by omega)

/-- Addresses outside the bytes written read as before, in any memory. -/
theorem read_writeBytes_outside {a b : Nat} {xs : List Byte} {m : Memory} (h : b < a ∨ a + xs.length ≤ b) :
    (m.writeBytes a xs).read b = m.read b := by
  induction xs generalizing a m with
  | nil => rfl
  | cons x xs ih =>
    simp only [List.length_cons] at h
    rw [writeBytes, ih (by omega), read_write_of_ne (by omega)]

/-- The `k`-th byte written is read back from the `k`-th address. -/
theorem read_writeBytes {a k : Nat} {xs : List Byte} {m : Memory} (w : m.wf = true) (ha : a + xs.length ≤ 4096)
    (hk : k < xs.length) : (m.writeBytes a xs).read (a + k) = xs[k] := by
  induction xs generalizing a k m with
  | nil => simp at hk
  | cons x xs ih =>
    simp only [List.length_cons] at ha hk
    cases k with
    | zero => rw [writeBytes, read_writeBytes_outside (by omega)]; simp [read_write w]
    | succ k =>
      have := ih (a := a + 1) (k := k) (wf_write (a := a) (x := x) w (by omega)) (by omega) (by omega)
      simpa [writeBytes, Nat.add_assoc, Nat.add_comm 1 k] using this

/-- The memory after reset is canonical. -/
theorem reset_wf : State.reset.mem.wf = true := rfl

@[simp] theorem readBytes_length (m : Memory) (a n : Nat) : (m.readBytes a n).length = n := by simp [readBytes]

@[simp] theorem readBytes_getElem (m : Memory) (a n k : Nat) (h : k < (m.readBytes a n).length) :
    (m.readBytes a n)[k] = m.read (a + k) := by simp [readBytes]

end Sys2Proof.Machine.Memory
end

