-- ==== Sys2Proof/Laws/Ops.lean ====
section
/-! SUPPORT. One lemma per shared operation that says everything it can do: register lists, block loads, the stack, the
range and key checks, the write order of flag and result, the timers, and the host's key events. -/

namespace Sys2Proof.Machine

namespace State

variable (s : State)

/-- Two states with equal registers have equal register files. -/
theorem v_eq_of_reg {s t : State} (h : ∀ r, s.reg r = t.reg r) : s.v = t.v := by
  apply Vector.ext
  intro k hk
  have := h (BitVec.ofNat 4 k)
  simpa only [reg, BitVec.toNat_ofNat, Nat.mod_eq_of_lt hk] using this

@[simp] theorem regsUpTo_length (x : Nibble) : (s.regsUpTo x).length = x.toNat + 1 := by simp [regsUpTo]

@[simp] theorem regsUpTo_getElem (x : Nibble) (k : Nat) (h : k < (s.regsUpTo x).length) :
    (s.regsUpTo x)[k] = s.reg (BitVec.ofNat 4 k) := by simp [regsUpTo]

/-- A block load writes the registers below `n` and nothing else. -/
theorem loadRegs_reg (base n : Nat) (h : n ≤ 16) (q : Nibble) :
    (s.loadRegs base n).reg q = if q.toNat < n then s.mem.read (base + q.toNat) else s.reg q := by
  induction n with
  | zero => simp [loadRegs]
  | succ n ih =>
    rw [loadRegs, setReg_reg, ih (by omega)]
    have hq : q = BitVec.ofNat 4 n ↔ q.toNat = n := by
      rw [← BitVec.toNat_inj, BitVec.toNat_ofNat, Nat.mod_eq_of_lt (by omega)]
    by_cases e : q.toNat = n
    · rw [if_pos (hq.2 e), if_pos (by omega), e]
    · rw [if_neg (fun c => e (hq.1 c))]
      by_cases l : q.toNat < n
      · rw [if_pos l, if_pos (by omega)]
      · rw [if_neg l, if_neg (by omega)]

theorem loadRegs_v (base n : Nat) : s.loadRegs base n = { s with v := (s.loadRegs base n).v } := by
  induction n with
  | zero => rfl
  | succ n ih => rw [loadRegs, ih]; rfl

/-- A call onto a stack with room (R112). -/
theorem push_some {s t : State} {w : Word} (h : s.push w = some t) :
    ∃ hd : s.depth.val < 16, t = s.setStack (s.stack.set s.depth.val w hd) ⟨s.depth.val + 1, Nat.succ_lt_succ hd⟩ := by
  unfold push at h
  split at h
  · exact ⟨‹_›, by simpa using h.symm⟩
  · simp at h

theorem push_none {s : State} {w : Word} : s.push w = none ↔ s.depth.val = 16 := by
  unfold push
  have := s.depth.isLt
  split <;> simp <;> omega

/-- A return from a stack that holds an address (R114). -/
theorem pop_some {s t : State} {w : Word} (h : s.pop = some (w, t)) :
    ∃ hd : s.depth.val - 1 < 16, 0 < s.depth.val ∧ w = s.stack[s.depth.val - 1] ∧
      t = s.setStack s.stack ⟨s.depth.val - 1, Nat.lt_succ_of_lt hd⟩ := by
  unfold pop at h
  split at h
  · rename_i hp
    simp only [Option.some.injEq, Prod.mk.injEq] at h
    exact ⟨by omega, hp, h.1.symm, h.2.symm⟩
  · simp at h

theorem pop_none {s : State} : s.pop = none ↔ s.depth.val = 0 := by
  unfold pop
  split <;> simp <;> omega

/-- The range check answers a next state only when its body does and the highest address exists (R55). -/
theorem inRange_next {s t : State} {last : Nat} {body : Result} (h : s.inRange last body = .next t) :
    s.ea last ≤ 0xFFF ∧ body = .next t := by
  unfold inRange raise at h
  split at h
  · simp at h
  · exact ⟨by omega, h⟩

theorem inRange_of_le {s : State} {last : Nat} {body : Result} (h : s.ea last ≤ 0xFFF) : s.inRange last body = body := by
  rw [inRange, if_neg (by omega)]

theorem inRange_of_gt {s : State} {last : Nat} {body : Result} (h : s.ea last > 0xFFF) :
    s.inRange last body = .fault (.outOfBoundsData (s.ea last)) := by
  rw [inRange, if_pos h, raise]

/-- The key check answers a next state only when VX names a key (R171). -/
theorem withKey_next {s t : State} {x : Nibble} {body : Nibble → Result} (h : s.withKey x body = .next t) :
    (s.reg x).toNat ≤ 15 ∧ body ((s.reg x).setWidth 4) = .next t := by
  unfold withKey raise at h
  split at h
  · simp at h
  · exact ⟨by omega, h⟩

theorem withKey_of_le {s : State} {x : Nibble} {body : Nibble → Result} (h : (s.reg x).toNat ≤ 15) :
    s.withKey x body = body ((s.reg x).setWidth 4) := by
  rw [withKey, if_neg (by omega)]

theorem withKey_of_gt {s : State} {x : Nibble} {body : Nibble → Result} (h : (s.reg x).toNat > 15) :
    s.withKey x body = .fault (.keyIndexFault (s.reg x)) := by
  rw [withKey, if_pos h, raise]

/-- The result stands in VX whatever X is; VF holds the flag unless X is F (R142). -/
@[simp] theorem flagThenResult_reg (x : Nibble) (f : Bool) (v : Byte) (q : Nibble) :
    (s.flagThenResult x f v).reg q = if q = x then v else if q = 0xF#4 then flagByte f else s.reg q := by
  simp [flagThenResult]

theorem flagThenResult_v (x : Nibble) (f : Bool) (v : Byte) :
    s.flagThenResult x f v = { s with v := (s.flagThenResult x f v).v } := rfl

/-- The timer step changes `DT`, `ST` and the sound output only (R184). -/
theorem timerStep_eq :
    s.timerStep = { s with dt := countDown s.dt, st := countDown s.st, sound := s.st == 0x01#8 } := rfl

theorem keyPress_running {s : State} (k : Nibble) (h : s.mode = .running) : s.keyPress k = s.setKey k true := by
  simp [keyPress, h]

theorem keyPress_waiting {s : State} (k : Nibble) (h : s.mode = .waitingForKey) :
    s.keyPress k = (((s.setKey k true).setReg s.waitReg (zext4 k)).setMode .running).advance := by
  simp [keyPress, h]

end State

theorem countDown_toNat (x : Byte) : (countDown x).toNat = x.toNat - 1 := by
  unfold countDown
  split
  · simp_all
  · rename_i h
    have : x.toNat ≠ 0 := fun c => h (BitVec.toNat_inj.1 (by simpa using c))
    have := x.isLt
    rw [BitVec.toNat_sub]; simp; omega

@[simp] theorem zext12_toNat (n : Addr12) : (zext12 n).toNat = n.toNat := by
  have := n.isLt; simp only [zext12, BitVec.toNat_setWidth]; omega

@[simp] theorem zext8_toNat (x : Byte) : (zext8 x).toNat = x.toNat := by
  have := x.isLt; simp only [zext8, BitVec.toNat_setWidth]; omega

@[simp] theorem zext4_toNat (k : Nibble) : (zext4 k).toNat = k.toNat := by
  have := k.isLt; simp only [zext4, BitVec.toNat_setWidth]; omega

theorem glyphAddr_toNat (x : Byte) : (glyphAddr x).toNat = x.toNat * 5 := by
  have := x.isLt; simp only [glyphAddr, BitVec.toNat_ofNat]; omega

@[simp] theorem decimalDigits_length (x : Byte) : (decimalDigits x).length = 3 := rfl

namespace Display

theorem cell_clear (x : Fin 64) (y : Fin 32) : cell clear x y = false := by
  simp [cell, clear, Vector.get]

/-- A flip changes its own cell and no other (R162). -/
theorem cell_flip (d : Display) (x x' : Fin 64) (y y' : Fin 32) :
    cell (flip d x y) x' y' = if x' = x ∧ y' = y then !cell d x y else cell d x' y' := by
  simp only [cell, flip, Vector.get_eq_getElem, Vector.getElem_set]
  by_cases hy : y' = y
  · subst hy
    by_cases hx : x' = x
    · subst hx; simp
    · have : (x : Nat) ≠ x' := fun c => hx (Fin.ext c.symm)
      simp [hx, this]
  · have : (y : Nat) ≠ y' := fun c => hy (Fin.ext c.symm)
    simp [hy, this]

end Display

end Sys2Proof.Machine
end

