-- ==== Sys2Proof/Laws/Decode.lean ====
section
/-! SUPPORT. The fields of encoded words (R72, R73): each field of a format reads back, and the fetched word of the bytes
of a word is that word. -/

namespace Sys2Proof

section nnn
variable (op : Nibble) (n : Addr12)

@[simp] theorem fieldOp_encodeNNN : fieldOp (encodeNNN op n) = op := by
  ext i hi
  simp only [fieldOp, encodeNNN, BitVec.getElem_extractLsb']
  exact (BitVec.getLsbD_append (x := op) (y := n)).trans (by simp [hi])

@[simp] theorem fieldNNN_encodeNNN : fieldNNN (encodeNNN op n) = n := by
  ext i hi
  simp only [fieldNNN, encodeNNN, BitVec.getElem_extractLsb']
  exact (BitVec.getLsbD_append (x := op) (y := n)).trans (by simp [hi])

end nnn

section xnn
variable (op x : Nibble) (n : Byte)

@[simp] theorem fieldOp_encodeXNN : fieldOp (encodeXNN op x n) = op := by
  ext i hi
  simp only [fieldOp, encodeXNN, BitVec.getElem_extractLsb']
  exact (BitVec.getLsbD_append (x := op ++ x) (y := n)).trans (by rw [if_neg (by omega), BitVec.getLsbD_append, if_neg (by omega)]; simp [show 12 + i - 8 - 4 = i by omega, hi])

@[simp] theorem fieldX_encodeXNN : fieldX (encodeXNN op x n) = x := by
  ext i hi
  simp only [fieldX, encodeXNN, BitVec.getElem_extractLsb']
  exact (BitVec.getLsbD_append (x := op ++ x) (y := n)).trans (by rw [if_neg (by omega), BitVec.getLsbD_append, if_pos (by omega)]; simp [show 8 + i - 8 = i by omega, hi])

@[simp] theorem fieldNN_encodeXNN : fieldNN (encodeXNN op x n) = n := by
  ext i hi
  simp only [fieldNN, encodeXNN, BitVec.getElem_extractLsb']
  exact (BitVec.getLsbD_append (x := op ++ x) (y := n)).trans (by rw [if_pos (by omega)]; simp [hi])

end xnn

section xyn
variable (op x y n : Nibble)

@[simp] theorem fieldOp_encodeXYN : fieldOp (encodeXYN op x y n) = op := by
  ext i hi
  simp only [fieldOp, encodeXYN, BitVec.getElem_extractLsb']
  exact (BitVec.getLsbD_append (x := op ++ x ++ y) (y := n)).trans (by rw [if_neg (by omega), BitVec.getLsbD_append, if_neg (by omega), BitVec.getLsbD_append, if_neg (by omega)]; simp [show 12 + i - 4 - 4 - 4 = i by omega, hi])

@[simp] theorem fieldX_encodeXYN : fieldX (encodeXYN op x y n) = x := by
  ext i hi
  simp only [fieldX, encodeXYN, BitVec.getElem_extractLsb']
  exact (BitVec.getLsbD_append (x := op ++ x ++ y) (y := n)).trans (by rw [if_neg (by omega), BitVec.getLsbD_append, if_neg (by omega), BitVec.getLsbD_append, if_pos (by omega)]; simp [show 8 + i - 4 - 4 = i by omega, hi])

@[simp] theorem fieldY_encodeXYN : fieldY (encodeXYN op x y n) = y := by
  ext i hi
  simp only [fieldY, encodeXYN, BitVec.getElem_extractLsb']
  exact (BitVec.getLsbD_append (x := op ++ x ++ y) (y := n)).trans (by rw [if_neg (by omega), BitVec.getLsbD_append, if_pos (by omega)]; simp [show 4 + i - 4 = i by omega, hi])

@[simp] theorem fieldN_encodeXYN : fieldN (encodeXYN op x y n) = n := by
  ext i hi
  simp only [fieldN, encodeXYN, BitVec.getElem_extractLsb']
  exact (BitVec.getLsbD_append (x := op ++ x ++ y) (y := n)).trans (by rw [if_pos (by omega)]; simp [hi])

end xyn

/-- The two bytes of a word, put together again (R52). -/
@[simp] theorem wordOfBytes_bytes (w : Word) : wordOfBytes (highByte w) (lowByte w) = w := by
  apply BitVec.eq_of_getLsbD_eq
  intro i hi
  refine (BitVec.getLsbD_append (x := highByte w) (y := lowByte w)).trans ?_
  simp only [highByte, lowByte, BitVec.getLsbD_extractLsb']
  by_cases h : i < 8
  · simp [h]
  · simp [h, show i - 8 < 8 by omega, show 8 + (i - 8) = i by omega]

/-- A word of format NNN from its fields (R72). -/
theorem encodeNNN_fields (w : Word) : encodeNNN (fieldOp w) (fieldNNN w) = w := by
  apply BitVec.eq_of_getLsbD_eq
  intro i hi
  refine (BitVec.getLsbD_append (x := fieldOp w) (y := fieldNNN w)).trans ?_
  simp only [fieldOp, fieldNNN, BitVec.getLsbD_extractLsb']
  interval_cases i <;> simp

/-- A word of format XNN from its fields (R72). -/
theorem encodeXNN_fields (w : Word) : encodeXNN (fieldOp w) (fieldX w) (fieldNN w) = w := by
  apply BitVec.eq_of_getLsbD_eq
  intro i hi
  refine (BitVec.getLsbD_append (x := fieldOp w ++ fieldX w) (y := fieldNN w)).trans ?_
  simp only [BitVec.getLsbD_append, fieldOp, fieldX, fieldNN, BitVec.getLsbD_extractLsb']
  interval_cases i <;> simp

/-- A word of formats XY and XYN from its fields (R72). -/
theorem encodeXYN_fields (w : Word) : encodeXYN (fieldOp w) (fieldX w) (fieldY w) (fieldN w) = w := by
  apply BitVec.eq_of_getLsbD_eq
  intro i hi
  refine (BitVec.getLsbD_append (x := fieldOp w ++ fieldX w ++ fieldY w) (y := fieldN w)).trans ?_
  simp only [BitVec.getLsbD_append, fieldOp, fieldX, fieldY, fieldN, BitVec.getLsbD_extractLsb']
  interval_cases i <;> simp

/-- Decoding refuses by naming the very word it was given (R80). -/
theorem decode_error {w : Word} {e : DecodeError} (h : decode w = .error e) : e = .decodeFailure w := by
  unfold decode decodeFamily0 decodeFamily5 decodeFamily8 decodeFamily9 decodeFamilyE decodeFamilyF at h
  split at h <;> (try split at h) <;> (try split at h) <;> simp_all

end Sys2Proof
end

