-- ==== Sys2Proof/Laws/PerInstr.lean ====
section
/-! SUPPORT. The family EncodingFitsRow: every instruction's opcode, at every operand, matches its own row of R76. One
lemma per constructor, each over the masks of its format. -/

namespace Sys2Proof

section masks
variable (op x y : Nibble)

theorem getLsbD_encodeNNN (n : Addr12) (i : Nat) :
    (encodeNNN op n).getLsbD i = if i < 12 then n.getLsbD i else op.getLsbD (i - 12) :=
  BitVec.getLsbD_append (x := op) (y := n)

theorem getLsbD_encodeXNN (n : Byte) (i : Nat) : (encodeXNN op x n).getLsbD i =
    if i < 8 then n.getLsbD i else if i - 8 < 4 then x.getLsbD (i - 8) else op.getLsbD (i - 8 - 4) :=
  (BitVec.getLsbD_append (x := op ++ x) (y := n)).trans (by rw [BitVec.getLsbD_append])

theorem getLsbD_encodeXYN (n : Nibble) (i : Nat) : (encodeXYN op x y n).getLsbD i =
    if i < 4 then n.getLsbD i else if i - 4 < 4 then y.getLsbD (i - 4)
    else if i - 4 - 4 < 4 then x.getLsbD (i - 4 - 4) else op.getLsbD (i - 4 - 4 - 4) :=
  (BitVec.getLsbD_append (x := op ++ x ++ y) (y := n)).trans (by rw [BitVec.getLsbD_append, BitVec.getLsbD_append])

/-- The top nibble selects, format NNN (R75). -/
theorem mask_encodeNNN (n : Addr12) : encodeNNN op n &&& 0xF000#16 = encodeNNN op 0 := by
  apply BitVec.eq_of_getLsbD_eq
  intro i hi
  simp only [BitVec.getLsbD_and, getLsbD_encodeNNN]
  interval_cases i <;> simp

/-- The top nibble selects, format XNN (R75). -/
theorem mask_encodeXNN (n : Byte) : encodeXNN op x n &&& 0xF000#16 = encodeXNN op 0 0 := by
  apply BitVec.eq_of_getLsbD_eq
  intro i hi
  simp only [BitVec.getLsbD_and, getLsbD_encodeXNN]
  interval_cases i <;> simp

/-- The top nibble and the low byte select, format X (R75). -/
theorem mask_encodeX (n : Byte) : encodeXNN op x n &&& 0xF0FF#16 = encodeXNN op 0 n := by
  apply BitVec.eq_of_getLsbD_eq
  intro i hi
  simp only [BitVec.getLsbD_and, getLsbD_encodeXNN]
  interval_cases i <;> simp

/-- The top and the low nibble select, format XY (R75). -/
theorem mask_encodeXY (n : Nibble) : encodeXYN op x y n &&& 0xF00F#16 = encodeXYN op 0 0 n := by
  apply BitVec.eq_of_getLsbD_eq
  intro i hi
  simp only [BitVec.getLsbD_and, getLsbD_encodeXYN]
  interval_cases i <;> simp

/-- The top nibble selects, format XYN (R75). -/
theorem mask_encodeXYN (n : Nibble) : encodeXYN op x y n &&& 0xF000#16 = encodeXYN op 0 0 0 := by
  apply BitVec.eq_of_getLsbD_eq
  intro i hi
  simp only [BitVec.getLsbD_and, getLsbD_encodeXYN]
  interval_cases i <;> simp

end masks

namespace Laws.EncodingFitsRow

/-- The instruction's opcode matches its own row of R76. -/
def Statement (i : Instr) : Prop := ∃ r ∈ opcodeRows, r.id = i.mnemonic ∧ r.fits (encode i) = true

/-- A row of the list whose mask cuts the opcode to its match value. -/
theorem of_row {i : Instr} (r : OpcodeRow) (hr : r ∈ opcodeRows) (hid : r.id = i.mnemonic)
    (hm : encode i &&& r.mask = r.value) : Statement i :=
  ⟨r, hr, hid, by simp [OpcodeRow.fits, hm]⟩

theorem cls : Statement (.cls) :=
  of_row ⟨"CLS", 0xFFFF#16, 0x00E0#16⟩ (by decide) rfl (by decide)

theorem ret : Statement (.ret) :=
  of_row ⟨"RET", 0xFFFF#16, 0x00EE#16⟩ (by decide) rfl (by decide)

theorem jp (nnn : Addr12) : Statement (.jp nnn) :=
  of_row ⟨"JP", 0xF000#16, 0x1000#16⟩ (by decide) rfl (mask_encodeNNN _ _)

theorem call (nnn : Addr12) : Statement (.call nnn) :=
  of_row ⟨"CALL", 0xF000#16, 0x2000#16⟩ (by decide) rfl (mask_encodeNNN _ _)

theorem seImm (x : Nibble) (nn : Byte) : Statement (.seImm x nn) :=
  of_row ⟨"SE_IMM", 0xF000#16, 0x3000#16⟩ (by decide) rfl (mask_encodeXNN _ _ _)

theorem sneImm (x : Nibble) (nn : Byte) : Statement (.sneImm x nn) :=
  of_row ⟨"SNE_IMM", 0xF000#16, 0x4000#16⟩ (by decide) rfl (mask_encodeXNN _ _ _)

theorem seReg (x y : Nibble) : Statement (.seReg x y) :=
  of_row ⟨"SE_REG", 0xF00F#16, 0x5000#16⟩ (by decide) rfl (mask_encodeXY _ _ _ _)

theorem ldImm (x : Nibble) (nn : Byte) : Statement (.ldImm x nn) :=
  of_row ⟨"LD_IMM", 0xF000#16, 0x6000#16⟩ (by decide) rfl (mask_encodeXNN _ _ _)

theorem addImm (x : Nibble) (nn : Byte) : Statement (.addImm x nn) :=
  of_row ⟨"ADD_IMM", 0xF000#16, 0x7000#16⟩ (by decide) rfl (mask_encodeXNN _ _ _)

theorem ldReg (x y : Nibble) : Statement (.ldReg x y) :=
  of_row ⟨"LD_REG", 0xF00F#16, 0x8000#16⟩ (by decide) rfl (mask_encodeXY _ _ _ _)

theorem or (x y : Nibble) : Statement (.or x y) :=
  of_row ⟨"OR", 0xF00F#16, 0x8001#16⟩ (by decide) rfl (mask_encodeXY _ _ _ _)

theorem and (x y : Nibble) : Statement (.and x y) :=
  of_row ⟨"AND", 0xF00F#16, 0x8002#16⟩ (by decide) rfl (mask_encodeXY _ _ _ _)

theorem xor (x y : Nibble) : Statement (.xor x y) :=
  of_row ⟨"XOR", 0xF00F#16, 0x8003#16⟩ (by decide) rfl (mask_encodeXY _ _ _ _)

theorem addReg (x y : Nibble) : Statement (.addReg x y) :=
  of_row ⟨"ADD_REG", 0xF00F#16, 0x8004#16⟩ (by decide) rfl (mask_encodeXY _ _ _ _)

theorem sub (x y : Nibble) : Statement (.sub x y) :=
  of_row ⟨"SUB", 0xF00F#16, 0x8005#16⟩ (by decide) rfl (mask_encodeXY _ _ _ _)

theorem shr (x y : Nibble) : Statement (.shr x y) :=
  of_row ⟨"SHR", 0xF00F#16, 0x8006#16⟩ (by decide) rfl (mask_encodeXY _ _ _ _)

theorem subn (x y : Nibble) : Statement (.subn x y) :=
  of_row ⟨"SUBN", 0xF00F#16, 0x8007#16⟩ (by decide) rfl (mask_encodeXY _ _ _ _)

theorem shl (x y : Nibble) : Statement (.shl x y) :=
  of_row ⟨"SHL", 0xF00F#16, 0x800E#16⟩ (by decide) rfl (mask_encodeXY _ _ _ _)

theorem sneReg (x y : Nibble) : Statement (.sneReg x y) :=
  of_row ⟨"SNE_REG", 0xF00F#16, 0x9000#16⟩ (by decide) rfl (mask_encodeXY _ _ _ _)

theorem ldI (nnn : Addr12) : Statement (.ldI nnn) :=
  of_row ⟨"LD_I", 0xF000#16, 0xA000#16⟩ (by decide) rfl (mask_encodeNNN _ _)

theorem jpV0 (nnn : Addr12) : Statement (.jpV0 nnn) :=
  of_row ⟨"JP_V0", 0xF000#16, 0xB000#16⟩ (by decide) rfl (mask_encodeNNN _ _)

theorem rnd (x : Nibble) (nn : Byte) : Statement (.rnd x nn) :=
  of_row ⟨"RND", 0xF000#16, 0xC000#16⟩ (by decide) rfl (mask_encodeXNN _ _ _)

theorem drw (x y n : Nibble) : Statement (.drw x y n) :=
  of_row ⟨"DRW", 0xF000#16, 0xD000#16⟩ (by decide) rfl (mask_encodeXYN _ _ _ _)

theorem skp (x : Nibble) : Statement (.skp x) :=
  of_row ⟨"SKP", 0xF0FF#16, 0xE09E#16⟩ (by decide) rfl (mask_encodeX _ _ _)

theorem sknp (x : Nibble) : Statement (.sknp x) :=
  of_row ⟨"SKNP", 0xF0FF#16, 0xE0A1#16⟩ (by decide) rfl (mask_encodeX _ _ _)

theorem ldVxDt (x : Nibble) : Statement (.ldVxDt x) :=
  of_row ⟨"LD_VX_DT", 0xF0FF#16, 0xF007#16⟩ (by decide) rfl (mask_encodeX _ _ _)

theorem ldVxK (x : Nibble) : Statement (.ldVxK x) :=
  of_row ⟨"LD_VX_K", 0xF0FF#16, 0xF00A#16⟩ (by decide) rfl (mask_encodeX _ _ _)

theorem ldDtVx (x : Nibble) : Statement (.ldDtVx x) :=
  of_row ⟨"LD_DT_VX", 0xF0FF#16, 0xF015#16⟩ (by decide) rfl (mask_encodeX _ _ _)

theorem ldStVx (x : Nibble) : Statement (.ldStVx x) :=
  of_row ⟨"LD_ST_VX", 0xF0FF#16, 0xF018#16⟩ (by decide) rfl (mask_encodeX _ _ _)

theorem addI (x : Nibble) : Statement (.addI x) :=
  of_row ⟨"ADD_I", 0xF0FF#16, 0xF01E#16⟩ (by decide) rfl (mask_encodeX _ _ _)

theorem ldF (x : Nibble) : Statement (.ldF x) :=
  of_row ⟨"LD_F", 0xF0FF#16, 0xF029#16⟩ (by decide) rfl (mask_encodeX _ _ _)

theorem ldB (x : Nibble) : Statement (.ldB x) :=
  of_row ⟨"LD_B", 0xF0FF#16, 0xF033#16⟩ (by decide) rfl (mask_encodeX _ _ _)

theorem stRegs (x : Nibble) : Statement (.stRegs x) :=
  of_row ⟨"ST_REGS", 0xF0FF#16, 0xF055#16⟩ (by decide) rfl (mask_encodeX _ _ _)

theorem ldRegs (x : Nibble) : Statement (.ldRegs x) :=
  of_row ⟨"LD_REGS", 0xF0FF#16, 0xF065#16⟩ (by decide) rfl (mask_encodeX _ _ _)

end Laws.EncodingFitsRow

end Sys2Proof
end

