-- ==== Sys2Proof/Laws/Exec.lean ====
section
/-! SUPPORT. What each shared piece of the tick can do: the equation of every meaning over the shared operations, and the
inversion of a tick, of a host operation and of a step. -/

namespace Sys2Proof.Machine

section meanings
variable (s : State) (x y n : Nibble) (nn : Byte) (nnn : Addr12)

theorem exec_cls : exec .cls s = .next (s.setDisp Display.clear).advance := rfl
theorem exec_jp : exec (.jp nnn) s = .next (s.setPc (zext12 nnn)) := rfl
theorem exec_jpV0 : exec (.jpV0 nnn) s = .next (s.setPc (zext12 nnn + zext8 (s.reg 0x0#4))) := rfl
theorem exec_seImm : exec (.seImm x nn) s = .next (s.skipIf (s.reg x == nn)) := rfl
theorem exec_sneImm : exec (.sneImm x nn) s = .next (s.skipIf (s.reg x != nn)) := rfl
theorem exec_seReg : exec (.seReg x y) s = .next (s.skipIf (s.reg x == s.reg y)) := rfl
theorem exec_sneReg : exec (.sneReg x y) s = .next (s.skipIf (s.reg x != s.reg y)) := rfl
theorem exec_ldImm : exec (.ldImm x nn) s = .next (s.setReg x nn).advance := rfl
theorem exec_addImm : exec (.addImm x nn) s = .next (s.setReg x (s.reg x + nn)).advance := rfl
theorem exec_ldReg : exec (.ldReg x y) s = .next (s.setReg x (s.reg y)).advance := rfl
theorem exec_or : exec (.or x y) s = .next (s.setReg x (s.reg x ||| s.reg y)).advance := rfl
theorem exec_and : exec (.and x y) s = .next (s.setReg x (s.reg x &&& s.reg y)).advance := rfl
theorem exec_xor : exec (.xor x y) s = .next (s.setReg x (s.reg x ^^^ s.reg y)).advance := rfl
theorem exec_addReg : exec (.addReg x y) s =
    .next (s.flagThenResult x (carry (s.reg x) (s.reg y)) (s.reg x + s.reg y)).advance := rfl
theorem exec_sub : exec (.sub x y) s =
    .next (s.flagThenResult x (notBorrow (s.reg x) (s.reg y)) (s.reg x - s.reg y)).advance := rfl
theorem exec_shr : exec (.shr x y) s =
    .next (s.flagThenResult x (shiftedOutLow (s.reg x)) (s.reg x >>> 1)).advance := rfl
theorem exec_subn : exec (.subn x y) s =
    .next (s.flagThenResult x (notBorrow (s.reg y) (s.reg x)) (s.reg y - s.reg x)).advance := rfl
theorem exec_shl : exec (.shl x y) s =
    .next (s.flagThenResult x (shiftedOutHigh (s.reg x)) (s.reg x <<< 1)).advance := rfl
theorem exec_rnd : exec (.rnd x nn) s =
    .next ((s.setReg x (Config.randomByte s.draws &&& nn)).setDraws (s.draws + 1)).advance := rfl
theorem exec_ldI : exec (.ldI nnn) s = .next (s.setI (zext12 nnn)).advance := rfl
theorem exec_addI : exec (.addI x) s =
    .next ((s.setReg 0xF#4 (flagByte (leavesRange s.i (s.reg x)))).setI (s.i + zext8 (s.reg x))).advance := rfl
theorem exec_ldF : exec (.ldF x) s = .next (s.setI (glyphAddr (s.reg x))).advance := rfl
theorem exec_ldVxDt : exec (.ldVxDt x) s = .next (s.setReg x s.dt).advance := rfl
theorem exec_ldDtVx : exec (.ldDtVx x) s = .next (s.setDt (s.reg x)).advance := rfl
theorem exec_ldStVx : exec (.ldStVx x) s = .next (s.setSt (s.reg x)).advance := rfl
theorem exec_ldVxK : exec (.ldVxK x) s = .next ((s.setMode .waitingForKey).setWaitReg x) := rfl
theorem exec_skp : exec (.skp x) s = s.withKey x fun k => .next (s.skipIf (s.keyDown k)) := rfl
theorem exec_sknp : exec (.sknp x) s = s.withKey x fun k => .next (s.skipIf (!s.keyDown k)) := rfl
theorem exec_ldB : exec (.ldB x) s =
    s.inRange 2 (.next (s.setMem (s.mem.writeBytes (s.ea 0) (decimalDigits (s.reg x)))).advance) := rfl
theorem exec_stRegs : exec (.stRegs x) s =
    s.inRange x.toNat (.next (s.setMem (s.mem.writeBytes (s.ea 0) (s.regsUpTo x))).advance) := rfl
theorem exec_ldRegs : exec (.ldRegs x) s =
    s.inRange x.toNat (.next (s.loadRegs (s.ea 0) (x.toNat + 1)).advance) := rfl

theorem exec_call_of_room (h : s.depth.val < 16) : exec (.call nnn) s =
    .next ((s.setStack (s.stack.set s.depth.val s.pc h) ⟨s.depth.val + 1, Nat.succ_lt_succ h⟩).setPc (zext12 nnn)) := by
  simp only [exec, execCall, State.push, dif_pos h]

theorem exec_call_of_full (h : ¬ s.depth.val < 16) : exec (.call nnn) s = .fault (.stackOverflow s.pc) := by
  simp only [exec, execCall, State.push, dif_neg h, raise]

theorem exec_ret_of_live (h : 0 < s.depth.val) (hb : s.depth.val - 1 < 16) : exec .ret s =
    .next ((s.setStack s.stack ⟨s.depth.val - 1, Nat.lt_succ_of_lt hb⟩).setPc (s.stack[s.depth.val - 1] + retAdvance)) := by
  simp only [exec, execRet, State.pop, dif_pos h]

theorem exec_ret_of_empty (h : ¬ 0 < s.depth.val) : exec .ret s = .fault (.stackUnderflow s.pc) := by
  simp only [exec, execRet, State.pop, dif_neg h, raise]

/-- DXYN draws, unless its last byte lies above memory (R162). -/
theorem exec_drw : exec (.drw x y n) s =
    if n = 0x0#4 ∨ s.ea (n.toNat - 1) ≤ 0xFFF then .next (s.drawn x y n)
    else .fault (.outOfBoundsData (s.ea (n.toNat - 1))) := by
  simp only [exec, execDrw, State.inRange, raise]
  by_cases h : n = 0x0#4
  · simp [h]
  · by_cases h' : s.ea (n.toNat - 1) > 0xFFF
    · simp [h, h']
    · simp [h, h']

end meanings

/-- The cells and VF of a drawing, and nothing else (R162). -/
theorem drawn_reg (s : State) (x y n q : Nibble) :
    (s.drawn x y n).reg q = if q = 0xF#4 then flagByte (s.sprite x y n).2 else s.reg q := by
  simp [State.drawn]

/-- What a completed tick did: one instruction of the opcode at `PC`, then the timer step (R92 to R95). -/
theorem runTick_next {s t : State} (h : s.runTick = .next t) :
    ∃ i u, s.pc.toNat ≤ 0xFFE ∧ decode s.opcode = .ok i ∧ exec i s = .next u ∧ t = u.timerStep := by
  unfold State.runTick raise at h
  split at h
  · simp at h
  split at h
  · rename_i i hd
    cases he : exec i s with
    | next u => exact ⟨i, u, by omega, hd, he, by simpa [he, finishTick] using h.symm⟩
    | fault f => simp [he, finishTick] at h
    | refused r => simp [he, finishTick] at h
  · simp at h

/-- What a completed tick did, in either mode (R91, R96). -/
theorem tick_next {s t : State} (h : s.tick = .next t) :
    (s.mode = .waitingForKey ∧ t = s) ∨
      (s.mode = .running ∧ ∃ i u, s.pc.toNat ≤ 0xFFE ∧ decode s.opcode = .ok i ∧ exec i s = .next u ∧ t = u.timerStep) := by
  unfold State.tick at h
  cases hm : s.mode with
  | waitingForKey => simp only [hm] at h; exact .inl ⟨rfl, by simpa using h.symm⟩
  | running => simp only [hm] at h; exact .inr ⟨rfl, runTick_next h⟩

/-- The state an oversized load ends in: the core as it was, the fault reported (R101, R198). -/
def State.loadFailed (s : State) (bytes : List Byte) : State :=
  (s.setLoadOpen false).setLoadFault (some (.programTooLarge bytes.length 3584))

/-- What a load within its contract did: it placed the image, or it reported that the image is too large (R101, R198). -/
theorem loadProgram_next {s t : State} {bytes : List Byte} (h : s.loadProgram bytes = .next t) :
    s.loadOpen = true ∧ (bytes.length ≤ 3584 ∧ t = (s.placeImage bytes).setLoadOpen false ∨
      3584 < bytes.length ∧ t = s.loadFailed bytes) := by
  unfold State.loadProgram at h
  split at h
  · simp at h
  rename_i ho
  split at h
  · rename_i hf
    exact ⟨by simpa using ho, .inl ⟨of_decide_eq_true hf, by simpa using h.symm⟩⟩
  · rename_i hf
    exact ⟨by simpa using ho, .inr ⟨Nat.lt_of_not_le fun c => hf (decide_eq_true c),
      by simpa [State.loadFailed, Config.progMax] using h.symm⟩⟩

theorem loadProgram_of_fits {s : State} {bytes : List Byte} (ho : s.loadOpen = true) (hl : bytes.length ≤ 3584) :
    s.loadProgram bytes = .next ((s.placeImage bytes).setLoadOpen false) := by
  simp [State.loadProgram, ho, imageFits, Config.progMax, hl]

theorem loadProgram_of_too_large {s : State} {bytes : List Byte} (ho : s.loadOpen = true) (hl : 3584 < bytes.length) :
    s.loadProgram bytes = .next (s.loadFailed bytes) := by
  simp [State.loadProgram, State.loadFailed, ho, imageFits, Config.progMax, Nat.not_le.2 hl]

theorem step_eq (s : State) : step s = s.beginOp.perform s.nextOp := rfl

/-- What one step that answers a next state did: one host operation (R107). -/
theorem step_next {s t : State} (h : step s = .next t) :
    (s.nextOp = .reset ∧ t = s.beginOp.newCore) ∨
    (∃ bytes, s.nextOp = .loadProgram bytes ∧ s.loadOpen = true ∧
      (bytes.length ≤ 3584 ∧ t = (s.beginOp.placeImage bytes).setLoadOpen false ∨
        3584 < bytes.length ∧ t = s.beginOp.loadFailed bytes)) ∨
    (s.nextOp = .tick ∧ s.beginTick.tick = .next t) ∨
    (∃ k, s.nextOp = .keyPress k ∧ t = s.beginTick.keyPress k) ∨
    (∃ k, s.nextOp = .keyRelease k ∧ t = s.beginTick.keyRelease k) ∨
    ((s.nextOp = .display ∨ s.nextOp = .onSound) ∧ t = s.beginOp) := by
  rw [step_eq] at h
  cases ho : s.nextOp with
  | reset => simp_all [State.perform]
  | loadProgram bytes =>
    rw [ho] at h
    obtain ⟨h1, h2⟩ := loadProgram_next h
    exact .inr (.inl ⟨bytes, rfl, h1, h2⟩)
  | tick => rw [ho] at h; exact .inr (.inr (.inl ⟨rfl, h⟩))
  | keyPress k => rw [ho] at h; exact .inr (.inr (.inr (.inl ⟨k, rfl, by simpa [State.perform, State.beginTick] using h.symm⟩)))
  | keyRelease k => rw [ho] at h; exact .inr (.inr (.inr (.inr (.inl ⟨k, rfl, by simpa [State.perform, State.beginTick] using h.symm⟩))))
  | display => simp_all [State.perform]
  | onSound => simp_all [State.perform]

section placing
variable (s : State) (w : Word)

theorem fetchPc_le : s.fetchPc.toNat ≤ 0xFFE := by
  unfold State.fetchPc
  split
  · decide
  · omega

/-- The word placed is the word the next step fetches (entry 17). -/
theorem placeWord_opcode (h : s.mem.wf = true) : (s.placeWord w).opcode = w := by
  have hp := fetchPc_le s
  have hw := Memory.wf_write (x := highByte w) h (show s.fetchPc.toNat < 4096 by omega)
  show wordOfBytes _ _ = w
  simp only [State.placeWord, State.setScript_mem, State.setMode_mem, State.setPc_mem, State.setMem_mem,
    State.setScript_pc, State.setMode_pc, State.setPc_pc, Memory.writeBytes]
  rw [Memory.read_write hw, Memory.read_write hw, if_neg (by omega), if_pos rfl, Memory.read_write h, if_pos rfl,
    wordOfBytes_bytes]

end placing

end Sys2Proof.Machine
end

