-- ==== Sys2Proof/Machine/Assembly.lean ====
section
/-! DEFINITION. The assembly spelling of an instruction (R82). It names instructions for a reader; the machine never reads
it. The document has no assembler: the spelling is the spec's decision D22 (entry 24). -/

namespace Sys2Proof.Machine

/-- One hexadecimal digit, in upper case. -/
def hexDigit (k : Nibble) : String :=
  (["0", "1", "2", "3", "4", "5", "6", "7"] ++ ["8", "9", "A", "B", "C", "D", "E", "F"]).getD k.toNat ""

/-- `V0` to `VF`. -/
def asmReg (r : Nibble) : String := "V" ++ hexDigit r

/-- A 4-bit number, "written in hexadecimal with `0x`" (R82). -/
def asmNibble (n : Nibble) : String := "0x" ++ hexDigit n

/-- An 8-bit number. -/
def asmByte (nn : Byte) : String := "0x" ++ hexDigit (nn.extractLsb' 4 4) ++ hexDigit (nn.extractLsb' 0 4)

/-- A 12-bit number. -/
def asmAddr (nnn : Addr12) : String :=
  "0x" ++ hexDigit (nnn.extractLsb' 8 4) ++ hexDigit (nnn.extractLsb' 4 4) ++ hexDigit (nnn.extractLsb' 0 4)

/-- Two operands. -/
def asmPair (op a b : String) : String := op ++ " " ++ a ++ ", " ++ b

/-- The assembly spelling (R82). -/
def asm : Instr → String
  | .cls => "CLS"
  | .ret => "RET"
  | .jp nnn => "JP " ++ asmAddr nnn
  | .call nnn => "CALL " ++ asmAddr nnn
  | .seImm x nn => asmPair "SE" (asmReg x) (asmByte nn)
  | .sneImm x nn => asmPair "SNE" (asmReg x) (asmByte nn)
  | .seReg x y => asmPair "SE" (asmReg x) (asmReg y)
  | .ldImm x nn => asmPair "LD" (asmReg x) (asmByte nn)
  | .addImm x nn => asmPair "ADD" (asmReg x) (asmByte nn)
  | .ldReg x y => asmPair "LD" (asmReg x) (asmReg y)
  | .or x y => asmPair "OR" (asmReg x) (asmReg y)
  | .and x y => asmPair "AND" (asmReg x) (asmReg y)
  | .xor x y => asmPair "XOR" (asmReg x) (asmReg y)
  | .addReg x y => asmPair "ADD" (asmReg x) (asmReg y)
  | .sub x y => asmPair "SUB" (asmReg x) (asmReg y)
  | .shr x _ => "SHR " ++ asmReg x
  | .subn x y => asmPair "SUBN" (asmReg x) (asmReg y)
  | .shl x _ => "SHL " ++ asmReg x
  | .sneReg x y => asmPair "SNE" (asmReg x) (asmReg y)
  | .ldI nnn => asmPair "LD" "I" (asmAddr nnn)
  | .jpV0 nnn => asmPair "JP" "V0" (asmAddr nnn)
  | .rnd x nn => asmPair "RND" (asmReg x) (asmByte nn)
  | .drw x y n => asmPair "DRW" (asmReg x) (asmReg y) ++ ", " ++ asmNibble n
  | .skp x => "SKP " ++ asmReg x
  | .sknp x => "SKNP " ++ asmReg x
  | .ldVxDt x => asmPair "LD" (asmReg x) "DT"
  | .ldVxK x => asmPair "LD" (asmReg x) "K"
  | .ldDtVx x => asmPair "LD" "DT" (asmReg x)
  | .ldStVx x => asmPair "LD" "ST" (asmReg x)
  | .addI x => asmPair "ADD" "I" (asmReg x)
  | .ldF x => asmPair "LD" "F" (asmReg x)
  | .ldB x => asmPair "LD" "B" (asmReg x)
  | .stRegs x => asmPair "LD" "[I]" (asmReg x)
  | .ldRegs x => asmPair "LD" (asmReg x) "[I]"

end Sys2Proof.Machine
end

