-- ==== Sys2Proof/Tests/Slice0.lean ====
section
/-! SUPPORT. Tests. Expected results are the vectors of 95_test_vectors.md, named in each docstring, or a rule's own words;
the second half shows, for each statement with hypotheses, a state and operands that meet them. -/

namespace Sys2Proof.Tests

open Sys2Proof Sys2Proof.Machine

/-! ### Well-formedness -/

/-- R82: `SHR` assembles with `Y = 0` only. -/
theorem test_shr_with_y_is_not_assembled : Instr.assembled (.shr 0x4 0x7) = false := by decide

/-- R82: `SHL` assembles with `Y = 0` only. -/
theorem test_shl_with_y_is_not_assembled : Instr.assembled (.shl 0x4 0x7) = false := by decide

/-- L6: an image of 3585 bytes does not fit. -/
theorem test_image_of_3585_bytes_does_not_fit : imageFits (List.replicate 3585 0x00#8) = false := by
  rw [imageFits, List.length_replicate]; decide

/-- L5: an image of 3584 bytes fits. -/
theorem test_image_of_3584_bytes_fits : imageFits (List.replicate 3584 0x00#8) = true := by
  rw [imageFits, List.length_replicate]; decide

/-- Half an opcode is refused by name (R70). -/
theorem test_one_byte_is_truncated : decodeBytes [0x12#8] = .error .truncated := by decide

/-! ### Decoding: words written out from the patterns of R76 (95_test_vectors.md section 2) -/

theorem test_decode_family_0 :
    decode 0b0000000011100000#16 = .ok (.cls) ∧
    decode 0b0000000011101110#16 = .ok (.ret) := by decide

theorem test_decode_control :
    decode 0b0001101010111100#16 = .ok (.jp 0xABC) ∧
    decode 0b0010111111111111#16 = .ok (.call 0xFFF) ∧
    decode 0b1011100000000000#16 = .ok (.jpV0 0x800) := by decide

theorem test_decode_skips :
    decode 0b0011101001111111#16 = .ok (.seImm 0xA 0x7F) ∧
    decode 0b0100101100000000#16 = .ok (.sneImm 0xB 0x00) ∧
    decode 0b0101101010110000#16 = .ok (.seReg 0xA 0xB) ∧
    decode 0b1001110011010000#16 = .ok (.sneReg 0xC 0xD) := by decide

theorem test_decode_immediates :
    decode 0b0110110001000010#16 = .ok (.ldImm 0xC 0x42) ∧
    decode 0b0111110111111111#16 = .ok (.addImm 0xD 0xFF) ∧
    decode 0b1010000100100011#16 = .ok (.ldI 0x123) ∧
    decode 0b1100010111110000#16 = .ok (.rnd 0x5 0xF0) ∧
    decode 0b1101000100101111#16 = .ok (.drw 0x1 0x2 0xF) := by decide

theorem test_decode_family_8 :
    decode 0b1000101010110000#16 = .ok (.ldReg 0xA 0xB) ∧
    decode 0b1000101010110001#16 = .ok (.or 0xA 0xB) ∧
    decode 0b1000101010110010#16 = .ok (.and 0xA 0xB) ∧
    decode 0b1000101010110011#16 = .ok (.xor 0xA 0xB) ∧
    decode 0b1000101010110100#16 = .ok (.addReg 0xA 0xB) ∧
    decode 0b1000101010110101#16 = .ok (.sub 0xA 0xB) ∧
    decode 0b1000101010110110#16 = .ok (.shr 0xA 0xB) ∧
    decode 0b1000101010110111#16 = .ok (.subn 0xA 0xB) ∧
    decode 0b1000101010111110#16 = .ok (.shl 0xA 0xB) := by decide

theorem test_decode_family_e :
    decode 0b1110111110011110#16 = .ok (.skp 0xF) ∧
    decode 0b1110000010100001#16 = .ok (.sknp 0x0) := by decide

theorem test_decode_family_f :
    decode 0b1111100100000111#16 = .ok (.ldVxDt 0x9) ∧
    decode 0b1111000000001010#16 = .ok (.ldVxK 0x0) ∧
    decode 0b1111111000010101#16 = .ok (.ldDtVx 0xE) ∧
    decode 0b1111001100011000#16 = .ok (.ldStVx 0x3) ∧
    decode 0b1111101000011110#16 = .ok (.addI 0xA) ∧
    decode 0b1111010000101001#16 = .ok (.ldF 0x4) ∧
    decode 0b1111011100110011#16 = .ok (.ldB 0x7) ∧
    decode 0b1111111101010101#16 = .ok (.stRegs 0xF) ∧
    decode 0b1111111001100101#16 = .ok (.ldRegs 0xE) := by decide

/-- X2, X4, X8, X10, X11, X14, X18, X24: words of no row are decode failures. -/
theorem test_decode_failures :
    decode 0x00E1#16 = .error (.decodeFailure 0x00E1) ∧
    decode 0x01E0#16 = .error (.decodeFailure 0x01E0) ∧
    decode 0x5121#16 = .error (.decodeFailure 0x5121) ∧
    decode 0x9AB1#16 = .error (.decodeFailure 0x9AB1) ∧
    decode 0x8008#16 = .error (.decodeFailure 0x8008) ∧
    decode 0xE09F#16 = .error (.decodeFailure 0xE09F) ∧
    decode 0xF000#16 = .error (.decodeFailure 0xF000) ∧
    decode 0xFFFF#16 = .error (.decodeFailure 0xFFFF) := by decide

/-- The high byte of an opcode lies at the lower address (R52). -/
theorem test_bytes_are_big_endian : decodeBytes [0x1A#8, 0xBC#8, 0x77#8] = .ok (.jp 0xABC, [0x77#8]) := by decide

/-- The table numbers bit 0 as the least significant bit of the word. -/
theorem test_table_word : decodeTableWord 16 0xD12F = some (.drw 0x1 0x2 0xF) := by decide

/-- The assembly column of 95_test_vectors.md section 2. -/
theorem test_assembly : asm (.drw 0x1 0x2 0xF) = "DRW V1, V2, 0xF" ∧ asm (.shr 0xA 0xB) = "SHR VA" ∧
    asm (.ldRegs 0xE) = "LD VE, [I]" ∧ asm (.jpV0 0x800) = "JP V0, 0x800" := by decide

/-! ### Single steps (95_test_vectors.md section 4) -/

/-- The state after reset with a word at 0x200, and the opcode it holds fetched next. -/
def at0 (w : Word) : State := State.reset.placeWord w

/-- A view of the state a step ends in, `none` where it does not end in one. -/
def after {α : Type} (s : State) (view : State → α) : Option α :=
  match step s with
  | .next t => some (view t)
  | _ => none

/-- The fault a step ends in. -/
def faultOf (s : State) : Option Fault :=
  match step s with
  | .fault f => some f
  | _ => none

/-- The state with bytes at an address. -/
def withBytes (s : State) (a : Nat) (l : List Byte) : State := s.setMem (s.mem.writeBytes a l)

/-- The state with addresses on its stack, the oldest first. -/
def withStack (s : State) (l : List Word) : State := l.foldl (fun t w => (t.push w).getD t) s

/-- DR1: cells off, VF kept. -/
theorem test_cls :
    after (((at0 0x00E0).setDisp (Display.flip Display.clear 63 31)).setReg 0xF 0x01)
      (fun t => (Display.cell t.disp 63 31, t.reg 0xF, t.pc)) =
    some (false, 0x01, 0x202) := by decide

/-- T8: the popped address plus 2. -/
theorem test_ret : after (withStack (at0 0x00EE) [0x0300]) (fun t => (t.pc, t.depth)) = some (0x302, 0) := by decide

/-- T9. -/
theorem test_ret_on_empty_stack : faultOf (at0 0x00EE) = some (.stackUnderflow 0x200) := by decide

/-- T1. -/
theorem test_jp : after (at0 0x1234) (fun t => t.pc) = some 0x234 := by decide

/-- T5: the pushed value is the call's own address. -/
theorem test_call : after (at0 0x2250) (fun t => (t.pc, t.depth, t.stack[0])) = some (0x250, 1, 0x200) := by decide

/-- T7. -/
theorem test_call_on_full_stack :
    faultOf (withStack (at0 0x2250) (List.replicate 16 0x222)) = some (.stackOverflow 0x200) := by decide

/-- S1. -/
theorem test_se_imm : after ((at0 0x332A).setReg 0x3 0x2A) (fun t => t.pc) = some 0x204 := by decide

/-- S2. -/
theorem test_se_imm_not_taken : after ((at0 0x332B).setReg 0x3 0x2A) (fun t => t.pc) = some 0x202 := by decide

/-- S5. -/
theorem test_sne_imm : after ((at0 0x4300).setReg 0x3 0x2A) (fun t => t.pc) = some 0x204 := by decide

/-- S4. -/
theorem test_sne_imm_not_taken : after ((at0 0x432A).setReg 0x3 0x2A) (fun t => t.pc) = some 0x202 := by decide

/-- S6. -/
theorem test_se_reg :
    after (((at0 0x5120).setReg 0x1 0x07).setReg 0x2 0x07) (fun t => t.pc) = some 0x204 := by decide

/-- S7. -/
theorem test_se_reg_not_taken :
    after (((at0 0x5120).setReg 0x1 0x07).setReg 0x2 0x08) (fun t => t.pc) = some 0x202 := by decide

/-- S10. -/
theorem test_sne_reg :
    after (((at0 0x9120).setReg 0x1 0x07).setReg 0x2 0x08) (fun t => t.pc) = some 0x204 := by decide

/-- S11. -/
theorem test_sne_reg_not_taken :
    after (((at0 0x9120).setReg 0x1 0x07).setReg 0x2 0x07) (fun t => t.pc) = some 0x202 := by decide

/-- A2. -/
theorem test_ld_imm : after (at0 0x6F12) (fun t => (t.reg 0xF, t.pc)) = some (0x12, 0x202) := by decide

/-- A3: wraps, VF kept. -/
theorem test_add_imm :
    after (((at0 0x7205).setReg 0x2 0xFE).setReg 0xF 0x55)
      (fun t => (t.reg 0x2, t.reg 0xF)) =
    some (0x03, 0x55) := by decide

/-- A6. -/
theorem test_ld_reg :
    after ((at0 0x8010).setReg 0x1 0x33) (fun t => (t.reg 0x0, t.reg 0x1)) = some (0x33, 0x33) := by decide

/-- A7: VF kept. -/
theorem test_or :
    after ((((at0 0x8011).setReg 0x0 0xF0).setReg 0x1 0x0F).setReg 0xF 0x77)
      (fun t => (t.reg 0x0, t.reg 0xF)) =
    some (0xFF, 0x77) := by decide

/-- A8: VF kept. -/
theorem test_and :
    after ((((at0 0x8012).setReg 0x0 0xF3).setReg 0x1 0x3F).setReg 0xF 0x77)
      (fun t => (t.reg 0x0, t.reg 0xF)) =
    some (0x33, 0x77) := by decide

/-- A9: VF kept. -/
theorem test_xor :
    after ((((at0 0x8013).setReg 0x0 0xF3).setReg 0x1 0x3F).setReg 0xF 0x77)
      (fun t => (t.reg 0x0, t.reg 0xF)) =
    some (0xCC, 0x77) := by decide

/-- A12. -/
theorem test_add_reg :
    after (((at0 0x8014).setReg 0x0 0xF0).setReg 0x1 0x20)
      (fun t => (t.reg 0x0, t.reg 0xF)) =
    some (0x10, 0x01) := by decide

/-- A17: the sum replaces the carry. -/
theorem test_add_reg_into_vf :
    after (((at0 0x8F14).setReg 0xF 0xF0).setReg 0x1 0x20) (fun t => t.reg 0xF) = some 0x10 := by decide

/-- A19. -/
theorem test_sub :
    after ((((at0 0x8015).setReg 0x0 0x05).setReg 0x1 0x0A).setReg 0xF 0x01)
      (fun t => (t.reg 0x0, t.reg 0xF)) =
    some (0xFB, 0x00) := by decide

/-- A24: the old VF is subtracted. -/
theorem test_sub_reads_vf_first :
    after (((at0 0x80F5).setReg 0x0 0x05).setReg 0xF 0x09)
      (fun t => (t.reg 0x0, t.reg 0xF)) =
    some (0xFC, 0x00) := by decide

/-- A27: Y is ignored. -/
theorem test_shr :
    after (((at0 0x8476).setReg 0x4 0x05).setReg 0x7 0xAA)
      (fun t => (t.reg 0x4, t.reg 0xF, t.reg 0x7)) =
    some (0x02, 0x01, 0xAA) := by decide

/-- A31. -/
theorem test_subn :
    after (((at0 0x8017).setReg 0x0 0x03).setReg 0x1 0x0A)
      (fun t => (t.reg 0x0, t.reg 0xF)) =
    some (0x07, 0x01) := by decide

/-- A33: no borrow. -/
theorem test_subn_equal :
    after (((at0 0x8017).setReg 0x0 0x07).setReg 0x1 0x07)
      (fun t => (t.reg 0x0, t.reg 0xF)) =
    some (0x00, 0x01) := by decide

/-- A35. -/
theorem test_shl :
    after ((at0 0x840E).setReg 0x4 0x81) (fun t => (t.reg 0x4, t.reg 0xF)) = some (0x02, 0x01) := by decide

/-- A36. -/
theorem test_shl_no_bit_out :
    after (((at0 0x840E).setReg 0x4 0x7F).setReg 0xF 0x01)
      (fun t => (t.reg 0x4, t.reg 0xF)) =
    some (0xFE, 0x00) := by decide

/-- I2. -/
theorem test_ld_i : after ((at0 0xAFFF).setI 0x1234) (fun t => t.i) = some 0xFFF := by decide

/-- T13: not masked to 12 bits. -/
theorem test_jp_v0 : after ((at0 0xBFFF).setReg 0x0 0xFF) (fun t => t.pc) = some 0x10FE := by decide

/-- A41: masked by 0 the byte drawn leaves 0, whatever it is (R144). -/
theorem test_rnd_masked_by_zero : after ((at0 0xC300).setReg 0x3 0x55) (fun t => t.reg 0x3) = some 0x00 := by
  show some (((Config.randomByte 0) &&& 0x00#8)) = some 0x00#8
  simp

/-- R144: the draw is consumed. -/
theorem test_rnd_consumes_a_draw : after (at0 0xC30F) (fun t => (t.draws, t.pc)) = some (1, 0x202) := by decide

/-- DR10: one cell collides, one is set. -/
theorem test_drw :
    after (((withBytes (at0 0xD011) 0x300 [0xC0]).setI 0x300).setDisp (Display.flip Display.clear 0 0))
      (fun t => (t.reg 0xF, Display.cell t.disp 0 0, Display.cell t.disp 1 0)) =
    some (0x01, false, true) := by decide

/-- DR7: row 31, columns 63 and 6. -/
theorem test_drw_wraps :
    after ((((withBytes (at0 0xD011) 0x300 [0x81]).setI 0x300).setReg 0x0 0xFF).setReg 0x1 0xFF)
      (fun t => (t.reg 0xF, Display.cell t.disp 63 31, Display.cell t.disp 6 31, Display.cell t.disp 0 31)) =
    some (0x00, true, true, false) := by decide

/-- K1. -/
theorem test_skp : after (((at0 0xE19E).setReg 0x1 0x05).setKey 0x5 true) (fun t => t.pc) = some 0x204 := by decide

/-- K4: not masked to key 0. -/
theorem test_skp_above_15 :
    faultOf (((at0 0xE19E).setReg 0x1 0x10).setKey 0x0 true) = some (.keyIndexFault 0x10) := by decide

/-- K7. -/
theorem test_sknp : after ((at0 0xE1A1).setReg 0x1 0x05) (fun t => t.pc) = some 0x204 := by decide

/-- K8. -/
theorem test_sknp_not_taken :
    after (((at0 0xE1A1).setReg 0x1 0x05).setKey 0x5 true) (fun t => t.pc) = some 0x202 := by decide

/-- M1: the value before the timer step. -/
theorem test_ld_vx_dt :
    after ((at0 0xF207).setDt 0x10) (fun t => (t.reg 0x2, t.dt)) = some (0x10, 0x0F) := by decide

/-- K11: the tick waits, its timer step runs and a held key resolves nothing. -/
theorem test_ld_vx_k :
    after ((((at0 0xF30A).setDt 0x03).setSt 0x01).setKey 0x5 true)
      (fun t => (t.mode, t.waitReg, t.pc, t.dt, t.st, t.sound)) =
    some (.waitingForKey, 0x3, 0x200, 0x02, 0x00, true) := by decide

/-- M4. -/
theorem test_ld_dt_vx : after ((at0 0xF215).setReg 0x2 0x05) (fun t => t.dt) = some 0x04 := by decide

/-- M8: written 1, signalled and back to 0. -/
theorem test_ld_st_vx :
    after ((at0 0xF218).setReg 0x2 0x01) (fun t => (t.st, t.sound)) = some (0x00, true) := by decide

/-- M10: a pending count of 1 is replaced by 0. -/
theorem test_ld_st_vx_replaces :
    after ((at0 0xF218).setSt 0x01) (fun t => (t.st, t.sound)) = some (0x00, false) := by decide

/-- I6: wraps, the flag from the exact sum. -/
theorem test_add_i :
    after (((at0 0xF01E).setI 0xFFFF).setReg 0x0 0x01)
      (fun t => (t.i, t.reg 0xF)) =
    some (0x0000, 0x01) := by decide

/-- I4: 0xFFF is not above 0xFFF. -/
theorem test_add_i_at_the_bound :
    after (((at0 0xF01E).setI 0x0FFF).setReg 0xF 0x01)
      (fun t => (t.i, t.reg 0xF)) =
    some (0x0FFF, 0x00) := by decide

/-- I11: the whole byte times 5. -/
theorem test_ld_f : after ((at0 0xF129).setReg 0x1 0xFF) (fun t => t.i) = some 0x04FB := by decide

/-- I17: the last three bytes of memory. -/
theorem test_ld_b :
    after (((at0 0xF533).setI 0xFFD).setReg 0x5 0x7B)
      (fun t => [t.mem.read 0xFFD, t.mem.read 0xFFE, t.mem.read 0xFFF]) =
    some [0x01, 0x02, 0x03] := by decide

/-- I18. -/
theorem test_ld_b_out_of_bounds :
    faultOf (((at0 0xF533).setI 0xFFE).setReg 0x5 0x7B) = some (.outOfBoundsData 0x1000) := by decide

/-- I20: V3 is not stored and I stands. -/
theorem test_st_regs :
    after ((((((at0 0xF255).setReg 0x0 0x11).setReg 0x1 0x22).setReg 0x2 0x33).setReg 0x3 0x44).setI 0x400)
      (fun t => ([t.mem.read 0x400, t.mem.read 0x401, t.mem.read 0x402, t.mem.read 0x403], t.i)) =
    some ([0x11, 0x22, 0x33, 0x00], 0x400) := by decide

/-- I25. -/
theorem test_st_regs_out_of_bounds : faultOf ((at0 0xF155).setI 0xFFF) = some (.outOfBoundsData 0x1000) := by decide

/-- I30: the glyph of 0 in the default font. -/
theorem test_ld_regs :
    after (at0 0xF465)
      (fun t => [t.reg 0x0, t.reg 0x1, t.reg 0x4, t.reg 0x5]) =
    some [0xF0, 0x90, 0xF0, 0x00] := by decide

/-- I29. -/
theorem test_ld_regs_out_of_bounds : faultOf ((at0 0xFF65).setI 0xFF1) = some (.outOfBoundsData 0x1000) := by decide

/-! ### The tick and the host -/

/-- R222: the first tick after reset, with no program. -/
theorem test_reset_tick : faultOf State.reset = some (.opcodeFault 0x0000 0x200) := by decide

/-- X26. -/
theorem test_fetch_at_0xFFF : faultOf (State.reset.setPc 0xFFF) = some (.outOfBoundsFetch 0xFFF) := by decide

/-- X25. -/
theorem test_last_fetchable_address :
    after (withBytes (State.reset.setPc 0xFFE) 0xFFE [0x60, 0xAA])
      (fun t => (t.reg 0x0, t.pc)) =
    some (0xAA, 0x1000) := by decide

/-- X28: bytes 20 60 of the font are CALL 0x060. -/
theorem test_code_in_the_font :
    after (State.reset.setPc 0x005) (fun t => (t.pc, t.stack[0])) = some (0x060, 0x005) := by decide

/-- K13: no fetch, timers frozen, no sound. -/
theorem test_waiting_tick :
    after ((((State.reset.setMode .waitingForKey).setWaitReg 0x3).setDt 0x07).setSt 0x01)
      (fun t => (t.mode, t.dt, t.st, t.sound)) =
    some (.waitingForKey, 0x07, 0x01, false) := by decide

/-- Q1 step 7. -/
theorem test_key_press_resolves :
    after (((at0 0xF30A).setMode .waitingForKey |>.setWaitReg 0x3).setScript [.keyPress 0xB])
      (fun t => (t.reg 0x3, t.pc, t.mode, t.keyDown 0xB)) =
    some (0x0B, 0x202, .running, true) := by decide

/-- Q1 step 4. -/
theorem test_key_release_does_not_resolve :
    after (((State.reset.setMode .waitingForKey).setKey 0x5 true).setScript [.keyRelease 0x5])
      (fun t => (t.mode, t.keyDown 0x5)) =
    some (.waitingForKey, false) := by decide

/-- L2. -/
theorem test_load_program :
    after (State.reset.setScript [.loadProgram [0x60, 0x0A]])
      (fun t => (t.mem.read 0x200, t.mem.read 0x201, t.pc)) =
    some (0x60, 0x0A, 0x200) := by decide

/-- The placed instruction is the one that runs. -/
theorem test_with_fetch_word : after (State.reset.withFetchWord 16 0x1234) (fun t => t.pc) = some 0x234 := by decide
/-! ### Witnesses: states and operands that meet the hypotheses of the statements -/

/-- The last fetchable address holds the word and the host ticks. -/
def atTop (w : Word) : State := (State.reset.setPc 0xFFE).placeWord w

/-- `I` at an address, the rest as after reset. -/
def withI (i : Word) : State := State.reset.setI i

/-- O2: a word that decodes. -/
theorem witness_EncodeOfDecodeIsIdentity : decode 0x8AB6 = .ok (.shr 0xA 0xB) := by decide

/-- O3: a word that decodes, one that matches a row, one that matches none. -/
theorem witness_DecodeAgreesWithOpcodeList :
    decode 0xFF65 = .ok (.ldRegs 0xF) ∧ (∃ r ∈ opcodeRows, 0xFF65#16 &&& r.mask = r.value) ∧
    (∀ r ∈ opcodeRows, 0xFF66#16 &&& r.mask ≠ r.value) := by decide

/-- O4: a word and its row, twice. -/
theorem witness_OpcodeListRowsAreDisjoint :
    ∃ r ∈ opcodeRows, ∃ q ∈ opcodeRows, 0x00EE#16 &&& r.mask = r.value ∧ 0x00EE#16 &&& q.mask = q.value := by decide

/-- O6: at the last fetchable address. -/
theorem witness_StepExecutesDecodedInstruction :
    (atTop 0x8AB6).nextOp = .tick ∧ (atTop 0x8AB6).mode = .running ∧ (atTop 0x8AB6).pc.toNat ≤ 0xFFE ∧
    decode ((atTop 0x8AB6).mem.read (atTop 0x8AB6).pc.toNat ++ (atTop 0x8AB6).mem.read ((atTop 0x8AB6).pc.toNat + 1)) =
      .ok (.shr 0xA 0xB) := by decide

/-- O7: an undecodable word at the last fetchable address. -/
theorem witness_UndecodedOpcodeFaults :
    (atTop 0x5121).nextOp = .tick ∧ (atTop 0x5121).mode = .running ∧ (atTop 0x5121).pc.toNat ≤ 0xFFE ∧
    0x5121#16 =
      (atTop 0x5121).mem.read (atTop 0x5121).pc.toNat ++ (atTop 0x5121).mem.read ((atTop 0x5121).pc.toNat + 1) ∧
    decode 0x5121 = .error (.decodeFailure 0x5121) := by decide

/-- A core that waits for a key into V3, with both timers above zero. -/
def waitingCore : State :=
  ((((at0 0xF30A).setMode .waitingForKey).setWaitReg 0x3).setDt 0x07).setSt 0x01

/-- A host that loads an image, and then ticks. -/
def loading (bytes : List Byte) : State := (State.reset.setSt 0x01).setScript [.loadProgram bytes, .tick]

/-- An image one byte too large. -/
def oversized : List Byte := List.replicate 3585 0xFF

theorem oversized_length : oversized.length = 3585 := List.length_replicate

/-- L6: a load that is too large answers a next state. -/
theorem loading_step (bytes : List Byte) (h : 3584 < bytes.length) :
    step (loading bytes) = .next ((loading bytes).beginOp.loadFailed bytes) :=
  loadProgram_of_too_large (s := (loading bytes).beginOp) rfl h

/-- L6: it reports ProgramTooLarge, memory stands and the run goes on with the host's next operation. -/
theorem test_oversized_load_is_reported (bytes : List Byte) :
    ((loading bytes).beginOp.loadFailed bytes).loadFault = some (.programTooLarge bytes.length 3584) ∧
    ((loading bytes).beginOp.loadFailed bytes).mem = State.reset.mem ∧
    ((loading bytes).beginOp.loadFailed bytes).nextOp = .tick := ⟨rfl, rfl, rfl⟩

/-- O8: a waiting tick. -/
theorem witness_WaitingTickChangesNothing : waitingCore.nextOp = .tick ∧ waitingCore.mode = .waitingForKey := by decide

/-- O9, first clause: an instruction that completes with `ST = 1`. -/
theorem witness_TimerStepAfterEveryInstruction_executed :
    ((at0 0x1200).setSt 0x01).nextOp = .tick ∧ ((at0 0x1200).setSt 0x01).mode = .running ∧
    ((at0 0x1200).setSt 0x01).pc.toNat ≤ 0xFFE ∧
    decode (((at0 0x1200).setSt 0x01).mem.read 0x200 ++ ((at0 0x1200).setSt 0x01).mem.read 0x201) = .ok (.jp 0x200) ∧
    ∃ u, exec (.jp 0x200) ((at0 0x1200).setSt 0x01).beginTick = .next u :=
  ⟨by decide, by decide, by decide, by decide, _, rfl⟩

/-- O9, second clause: a waiting tick, each event of the host and a load, fitting or not, answer a next state. -/
theorem witness_TimerStepAfterEveryInstruction_frozen :
    (∃ t, step waitingCore = .next t) ∧ (∃ t, step (waitingCore.setScript [.keyPress 0xF]) = .next t) ∧
    (∃ t, step (waitingCore.setScript [.keyRelease 0x0]) = .next t) ∧
    (∃ t, step (waitingCore.setScript [.display]) = .next t) ∧
    (∃ t, step (waitingCore.setScript [.onSound]) = .next t) ∧ (∃ t, step (waitingCore.setScript [.reset]) = .next t) ∧
    (∃ t, step (State.reset.setScript [.loadProgram [0x12, 0x00]]) = .next t) ∧ ∃ t, step (loading oversized) = .next t :=
  ⟨⟨_, rfl⟩, ⟨_, rfl⟩, ⟨_, rfl⟩, ⟨_, rfl⟩, ⟨_, rfl⟩, ⟨_, rfl⟩, ⟨_, rfl⟩, _, loading_step _ (by rw [oversized_length]; decide)⟩

/-- O9, second clause: the operation of each is no tick in RUNNING mode. -/
theorem witness_TimerStepAfterEveryInstruction_no_execution :
    waitingCore.mode ≠ .running ∧ (waitingCore.setScript [.display]).nextOp ≠ .tick ∧
    (State.reset.setScript [.loadProgram [0x12, 0x00]]).nextOp ≠ .tick := by decide

/-- O10: each kind of listed condition holds somewhere. -/
theorem witness_InstructionFaultsExactlyAsListed :
    faultCondition .ret State.reset = some (.stackUnderflow 0x200) ∧
    faultCondition (.call 0x250) (withStack State.reset (List.replicate 16 0x222)) = some (.stackOverflow 0x200) ∧
    faultCondition (.drw 0x0 0x0 0x1) (withI 0x1000) = some (.outOfBoundsData 0x1000) ∧
    faultCondition (.ldB 0x0) (withI 0xFFE) = some (.outOfBoundsData 0x1000) ∧
    faultCondition (.stRegs 0x1) (withI 0xFFF) = some (.outOfBoundsData 0x1000) ∧
    faultCondition (.ldRegs 0x1) (withI 0xFFF) = some (.outOfBoundsData 0x1000) ∧
    faultCondition (.skp 0x1) (State.reset.setReg 0x1 0x10) = some (.keyIndexFault 0x10) := by decide

/-- O11: the conditions at their last good value. -/
theorem witness_InstructionCompletesUnlessListed :
    faultCondition (.call 0x250) (withStack State.reset (List.replicate 15 0x222)) = none ∧
    faultCondition (.drw 0x0 0x0 0x1) (withI 0xFFF) = none ∧ faultCondition (.ldB 0x0) (withI 0xFFD) = none ∧
    faultCondition (.stRegs 0xF) (withI 0xFF0) = none ∧ faultCondition (.sknp 0x1) (State.reset.setReg 0x1 0x0F) = none := by
  decide

/-- O12: a tick that faults and a waiting tick. -/
theorem witness_TickFaultsInOrderOfChecks :
    State.reset.nextOp = .tick ∧ tickFault State.reset = some (.opcodeFault 0x0000 0x200) ∧
    (State.reset.setPc 0xFFF).nextOp = .tick ∧ tickFault (State.reset.setPc 0xFFF) = some (.outOfBoundsFetch 0xFFF) ∧
    waitingCore.nextOp = .tick ∧ tickFault waitingCore = none := by decide

/-- O13: a load the contract does not allow, steps that close the window, and one that opens it. -/
theorem witness_OnlyLateLoadsAreRefused :
    ((State.reset.setLoadOpen false).setScript [.loadProgram []]).nextOp = .loadProgram [] ∧
    ((State.reset.setLoadOpen false).setScript [.loadProgram []]).loadOpen = false ∧
    after (at0 0x1200) (fun t => t.loadOpen) = some false ∧
    after (State.reset.setScript [.keyRelease 0x0]) (fun t => t.loadOpen) = some false ∧
    after (State.reset.setScript [.display]) (fun t => t.loadOpen) = some true ∧
    after ((State.reset.setLoadOpen false).setScript [.reset]) (fun t => t.loadOpen) = some true := by decide

/-- O15: a state with the invariants whose step answers a next state. -/
theorem witness_StepKeepsInvariants : Inv (at0 0x00E0) ∧ ∃ t, step (at0 0x00E0) = .next t :=
  ⟨⟨by decide, by decide, fun j _ h => absurd h (Nat.not_lt_zero j),
    (fun h => nomatch h), (fun h => nomatch h)⟩, _, rfl⟩

/-- O16: a reachable state. -/
theorem witness_ReachableStatesSatisfyInvariants : Reachable (State.reset.setScript [.loadProgram [0x12, 0x00]]) :=
  Reachable.start _

/-- O17: two canonical memories that read alike. -/
theorem witness_CanonicalMemoriesReadingAlikeAreEqual :
    Memory.wf [(0x000, 0x01#8), (0xFFF, 0x01#8)] = true ∧
    ∀ a, Memory.read [(0x000, 0x01#8), (0xFFF, 0x01#8)] a =
      Memory.read (Memory.write (Memory.write [] 0xFFF 0x01#8) 0x000 0x01#8) a := ⟨by decide, fun _ => rfl⟩

/-- O18, O19: the largest image that fits, and the smallest. -/
theorem witness_LoadProgramPlacesImage :
    (State.reset.setScript [.loadProgram (List.replicate 3584 0xFF)]).nextOp = .loadProgram (List.replicate 3584 0xFF) ∧
    (State.reset.setScript [.loadProgram (List.replicate 3584 0xFF)]).loadOpen = true ∧
    (List.replicate 3584 0xFF#8).length ≤ 3584 ∧ State.reset.mem.wf = true ∧
    (State.reset.setScript [.loadProgram []]).nextOp = .loadProgram [] ∧ ([] : List Byte).length ≤ 3584 :=
  ⟨rfl, rfl, by rw [List.length_replicate], rfl, rfl, by decide⟩

/-- O19: the smallest image that does not fit, and a step that reports it. -/
theorem witness_OversizedImageFaults :
    (loading oversized).nextOp = .loadProgram oversized ∧ (loading oversized).loadOpen = true ∧
    oversized.length > 4096 - 0x200 ∧ (∃ t, step (loading oversized) = .next t ∧ t.loadFault ≠ none) ∧
    (List.replicate 3584 0xFF#8).length = 3584 :=
  ⟨rfl, rfl, by rw [oversized_length]; decide,
    ⟨_, loading_step _ (by rw [oversized_length]; decide), fun h => nomatch h⟩, List.length_replicate⟩

/-- O20: the ranges of R20's reset table at their ends. -/
theorem witness_ResetValues :
    State.reset.mem.read 79 = 0x80 ∧ State.reset.mem.read 80 = 0x00 ∧ State.reset.mem.read 0xFFF = 0x00 := by decide

/-- O21: a core in the middle of a wait that is reset. -/
theorem witness_ResetOperationGivesFreshCore : (waitingCore.setScript [.reset]).nextOp = .reset := by decide

/-- O22: a key pressed while RUNNING. -/
theorem witness_KeyPressWhileRunningSetsKey :
    (State.reset.setScript [.keyPress 0xF]).nextOp = .keyPress 0xF ∧
    (State.reset.setScript [.keyPress 0xF]).mode = .running := by decide

/-- O23: a key released in either mode. -/
theorem witness_KeyReleaseClearsKey :
    (State.reset.setScript [.keyRelease 0x0]).nextOp = .keyRelease 0x0 ∧
    (waitingCore.setScript [.keyRelease 0xF]).nextOp = .keyRelease 0xF := by decide

/-- O24: a key pressed while waiting. -/
theorem witness_KeyPressResolvesWait :
    (waitingCore.setScript [.keyPress 0xF]).nextOp = .keyPress 0xF ∧
    (waitingCore.setScript [.keyPress 0xF]).mode = .waitingForKey := by decide

/-- O25: a tick that starts a wait, one that stays in it, and a press that ends it. -/
theorem witness_KeyWaitTransitions :
    after (at0 0xFF0A) (fun t => t.mode) = some .waitingForKey ∧ after waitingCore (fun t => t.mode) = some .waitingForKey ∧
    after (waitingCore.setScript [.keyPress 0xF]) (fun t => t.mode) = some .running := by decide

/-- O27: a stack with room for one more, and a full one. -/
theorem witness_CallPushesItsOwnAddress :
    (withStack State.reset (List.replicate 15 0x222)).sp < 15 ∧ (withStack State.reset (List.replicate 16 0x222)).sp = 15 := by
  decide

/-- O29: one address, and none. -/
theorem witness_ReturnResumesAfterPoppedAddress : (withStack State.reset [0x222]).sp ≥ 0 ∧ State.reset.sp = -1 := by decide

/-- O30: a call that completes, and a subroutine that has changed a register, memory, a timer and PC. -/
theorem witness_ReturnUndoesCall :
    ∃ t w : State, exec (.call 0xFFF) State.reset = .next t ∧ w.stack = t.stack ∧ w.depth = t.depth ∧ w.reg 0x0 ≠ t.reg 0x0 ∧
      w.mem ≠ t.mem ∧ w.dt ≠ t.dt ∧ w.pc ≠ t.pc :=
  ⟨_, ((((State.reset.push 0x200).getD State.reset).setReg 0x0 0xFF).setMem [(0x300, 0x01)]).setDt 0x09, rfl,
    by decide, by decide, by decide, by decide, by decide, by decide⟩

/-- O33: the last key index and the first value that is none. -/
theorem witness_KeySkips :
    ((State.reset.setReg 0x1 0x0F).reg 0x1).toNat ≤ 15 ∧ ((State.reset.setReg 0x1 0x10).reg 0x1).toNat > 15 := by decide

/-- O36, O37 and O38: the last X that is not F. -/
theorem witness_AddRegistersSetsCarry : (0xE#4 : Nibble) ≠ 0xF := by decide

/-- O42: the last `I` that leaves room for three digits, and the next. -/
theorem witness_StoreDecimalDigits :
    State.reset.mem.wf = true ∧ (withI 0xFFD).i.toNat + 2 ≤ 0xFFF ∧ (withI 0xFFE).i.toNat + 2 > 0xFFF := by decide

/-- O43 and O44: the last `I` that leaves room for sixteen registers, and the next. -/
theorem witness_StoreRegisters :
    (withI 0xFF0).mem.wf = true ∧ (withI 0xFF0).i.toNat + (0xF#4 : Nibble).toNat ≤ 0xFFF ∧
    (withI 0xFF1).i.toNat + (0xF#4 : Nibble).toNat > 0xFFF := by decide

/-- O45: a store that completes; then a register, a timer and the script differ. -/
theorem witness_StoreThenLoadRestoresRegisters :
    (withI 0xFF0).mem.wf = true ∧
    ∃ t w : State, exec (.stRegs 0xF) (withI 0xFF0) = .next t ∧ (∀ a, w.mem.read a = t.mem.read a) ∧ w.i = t.i ∧
      w.reg 0x0 ≠ t.reg 0x0 ∧ w.dt ≠ t.dt :=
  ⟨rfl, _, ((withI 0xFF0).setReg 0x0 0xFF).setDt 0x09, rfl, fun _ => rfl, rfl, by decide, by decide⟩

/-- O47: a sprite that ends at the last byte of memory, one that runs past it, and no sprite with I above memory. -/
theorem witness_DrawTogglesCoveredCells :
    (withI 0xFF1).i.toNat + (0xF#4 : Nibble).toNat - 1 ≤ 0xFFF ∧ (0xF#4 : Nibble) ≠ 0 ∧
    (withI 0xFF2).i.toNat + (0xF#4 : Nibble).toNat - 1 > 0xFFF ∧ (withI 0x1FFF).i.toNat > 0xFFF ∧
    ∃ t, exec (.drw 0x0 0x0 0x0) (withI 0x1FFF) = .next t :=
  ⟨by decide, by decide, by decide, by decide, _, rfl⟩

/-- The state between two draws: what the first left, with its timer and a register moved. -/
def betweenDraws : State := ((State.reset.drawn 0x0 0x1 0x5).setDt 0x09).setReg 0x2 0xFF

/-- O48: a draw that completes, and a state in which a timer and a register moved before the second. -/
theorem witness_DrawingTwiceRestoresDisplay :
    ∃ t, exec (.drw 0x0 0x1 0x5) State.reset = .next t ∧ (∀ a, betweenDraws.mem.read a = t.mem.read a) ∧
      betweenDraws.i = t.i ∧ betweenDraws.disp = t.disp ∧ betweenDraws.reg 0x0 = State.reset.reg 0x0 ∧
      betweenDraws.reg 0x1 = State.reset.reg 0x1 ∧ betweenDraws.dt ≠ t.dt :=
  ⟨_, rfl, fun _ => rfl, rfl, rfl, by simp [betweenDraws, drawn_reg], by simp [betweenDraws, drawn_reg], by decide⟩

/-- O49: the second draw completes too. -/
theorem witness_SecondDrawReportsEverySetBit : ∃ u, exec (.drw 0x0 0x1 0x5) betweenDraws = .next u := ⟨_, rfl⟩

/-- O50: a sprite of fifteen rows in the last corner of the grid. -/
theorem witness_EdgePoliciesAgreeInsideGrid :
    (56#8 : Byte).toNat ≤ 56 ∧ (17#8 : Byte).toNat + (List.replicate 15 0xFF#8).length ≤ 32 := by decide

/-- O53: a tick of FX15 and one of FX18. -/
theorem witness_TimerWriteCountsInItsTick :
    (atTop 0xFF15).nextOp = .tick ∧ (atTop 0xFF15).mode = .running ∧ (atTop 0xFF15).pc.toNat ≤ 0xFFE ∧
    decode ((atTop 0xFF15).mem.read (atTop 0xFF15).pc.toNat ++ (atTop 0xFF15).mem.read ((atTop 0xFF15).pc.toNat + 1)) =
      .ok (.ldDtVx 0xF) ∧
    (atTop 0xFF18).nextOp = .tick ∧ (atTop 0xFF18).mode = .running ∧ (atTop 0xFF18).pc.toNat ≤ 0xFFE ∧
    decode ((atTop 0xFF18).mem.read (atTop 0xFF18).pc.toNat ++ (atTop 0xFF18).mem.read ((atTop 0xFF18).pc.toNat + 1)) =
      .ok (.ldStVx 0xF) := by decide

/-- O54 to O56: an instruction that completes, and a register it does not write. -/
theorem witness_InstructionsChangeOnlyWhatTheyName :
    (∃ t, exec (.addReg 0xE 0xF) State.reset = .next t) ∧ ¬ writesReg (.addReg 0xE 0xF) 0x0 :=
  ⟨⟨_, rfl⟩, by simp [writesReg]⟩

/-- O57: an instruction that is not CXNN. -/
theorem witness_OnlyRandomDependsOnDraws : ∀ x nn, (Instr.drw 0x0 0x0 0xF) ≠ .rnd x nn := by intros; simp

/-- O58: an instruction that is neither EX9E nor EXA1. -/
theorem witness_OnlyKeySkipsReadKeys :
    (∀ x, Instr.ldVxK 0x0 ≠ .skp x) ∧ ∀ x, Instr.ldVxK 0x0 ≠ .sknp x := by constructor <;> intros <;> simp

/-- O59: the two operations, the core waiting or not. -/
theorem witness_DisplayAndOnSoundChangeNothing :
    (waitingCore.setScript [.display]).nextOp = .display ∧ (State.reset.setScript [.onSound]).nextOp = .onSound := by decide

/-- O60: steps of three kinds that complete with an operation left. -/
theorem witness_EveryStepTakesOneOperation :
    after ((at0 0x1200).setScript [.tick, .reset]) (fun t => t.script) = some [.reset] ∧
    after (waitingCore.setScript [.keyPress 0xF, .tick]) (fun t => t.script) = some [.tick] ∧
    after (waitingCore.setScript [.reset, .display]) (fun t => t.script) = some [.display] := by decide

end Sys2Proof.Tests
end

/-! ## Frames (R13, R36): what each update of the state leaves unchanged -/

namespace Sys2Proof.Machine

namespace Elem

theorem Same.refl (e : Elem) (s : State) : e.Same s s := by cases e <;> simp [Same]

theorem Same.trans {e : Elem} {s t u : State} (h : e.Same s t) (h' : e.Same t u) : e.Same s u := by
  cases e <;> simp_all [Same]

section updates
variable {e : Elem} (s : State)

theorem same_setMem (m : Memory) (h : e ≠ .mem) : e.Same s (s.setMem m) := by cases e <;> simp [Same] at h ⊢

theorem same_setReg (r : Nibble) (x : Byte) (h : e ≠ .v) : e.Same s (s.setReg r x) := by cases e <;> simp [Same] at h ⊢

theorem same_setI (w : Word) (h : e ≠ .i) : e.Same s (s.setI w) := by cases e <;> simp [Same] at h ⊢

theorem same_setPc (w : Word) (h : e ≠ .pc) : e.Same s (s.setPc w) := by cases e <;> simp [Same] at h ⊢

theorem same_setStack (k : Vector Word 16) (d : Fin 17) (h : e ≠ .stack) : e.Same s (s.setStack k d) := by
  cases e <;> simp [Same] at h ⊢

theorem same_setDt (x : Byte) (h : e ≠ .dt) : e.Same s (s.setDt x) := by cases e <;> simp [Same] at h ⊢

theorem same_setSt (x : Byte) (h : e ≠ .st) : e.Same s (s.setSt x) := by cases e <;> simp [Same] at h ⊢

theorem same_setDisp (d : Display) (h : e ≠ .disp) : e.Same s (s.setDisp d) := by cases e <;> simp [Same] at h ⊢

theorem same_setMode (m : Mode) (h : e ≠ .mode) : e.Same s (s.setMode m) := by cases e <;> simp [Same] at h ⊢

theorem same_setWaitReg (r : Nibble) (h : e ≠ .mode) : e.Same s (s.setWaitReg r) := by cases e <;> simp [Same] at h ⊢

theorem same_setDraws (n : Nat) (h : e ≠ .draws) : e.Same s (s.setDraws n) := by cases e <;> simp [Same] at h ⊢

end updates

end Elem

/-! A frame is built along the updates of a meaning: `SameExcept.refl.setReg.advance` is the frame of
`(s.setReg r x).advance`, in any list that names the elements written. -/

namespace SameExcept

variable {l : List Elem} {s t u : State}

theorem refl : SameExcept l s s := fun e _ => Elem.Same.refl e s

/-- An update that keeps every element but `w` extends a frame in whose list `w` stands. -/
theorem update {w : Elem} (h : SameExcept l s t) (hw : w ∈ l) (hu : ∀ e, e ≠ w → e.Same t u) : SameExcept l s u :=
  fun e he => (h e he).trans (hu e (ne_of_mem_of_not_mem hw he).symm)

theorem setMem {m : Memory} (h : SameExcept l s t) (hw : .mem ∈ l := by simp [elemsWritten]) :
    SameExcept l s (t.setMem m) := h.update hw fun _ => Elem.same_setMem t m

theorem setReg {r : Nibble} {x : Byte} (h : SameExcept l s t) (hw : .v ∈ l := by simp [elemsWritten]) :
    SameExcept l s (t.setReg r x) := h.update hw fun _ => Elem.same_setReg t r x

theorem setI {w : Word} (h : SameExcept l s t) (hw : .i ∈ l := by simp [elemsWritten]) :
    SameExcept l s (t.setI w) := h.update hw fun _ => Elem.same_setI t w

theorem setPc {w : Word} (h : SameExcept l s t) (hw : .pc ∈ l := by simp [elemsWritten]) :
    SameExcept l s (t.setPc w) := h.update hw fun _ => Elem.same_setPc t w

theorem setStack {k : Vector Word 16} {d : Fin 17} (h : SameExcept l s t) (hw : .stack ∈ l := by simp [elemsWritten]) :
    SameExcept l s (t.setStack k d) := h.update hw fun _ => Elem.same_setStack t k d

theorem setDt {x : Byte} (h : SameExcept l s t) (hw : .dt ∈ l := by simp [elemsWritten]) :
    SameExcept l s (t.setDt x) := h.update hw fun _ => Elem.same_setDt t x

theorem setSt {x : Byte} (h : SameExcept l s t) (hw : .st ∈ l := by simp [elemsWritten]) :
    SameExcept l s (t.setSt x) := h.update hw fun _ => Elem.same_setSt t x

theorem setDisp {d : Display} (h : SameExcept l s t) (hw : .disp ∈ l := by simp [elemsWritten]) :
    SameExcept l s (t.setDisp d) := h.update hw fun _ => Elem.same_setDisp t d

theorem setMode {m : Mode} (h : SameExcept l s t) (hw : .mode ∈ l := by simp [elemsWritten]) :
    SameExcept l s (t.setMode m) := h.update hw fun _ => Elem.same_setMode t m

theorem setWaitReg {r : Nibble} (h : SameExcept l s t) (hw : .mode ∈ l := by simp [elemsWritten]) :
    SameExcept l s (t.setWaitReg r) := h.update hw fun _ => Elem.same_setWaitReg t r

theorem setDraws {n : Nat} (h : SameExcept l s t) (hw : .draws ∈ l := by simp [elemsWritten]) :
    SameExcept l s (t.setDraws n) := h.update hw fun _ => Elem.same_setDraws t n

theorem advance (h : SameExcept l s t) (hw : .pc ∈ l := by simp [elemsWritten]) : SameExcept l s t.advance :=
  h.setPc hw

theorem skipIf {c : Bool} (h : SameExcept l s t) (hw : .pc ∈ l := by simp [elemsWritten]) :
    SameExcept l s (t.skipIf c) := h.setPc hw

theorem flagThenResult {x : Nibble} {f : Bool} {v : Byte} (h : SameExcept l s t)
    (hw : .v ∈ l := by simp [elemsWritten]) : SameExcept l s (t.flagThenResult x f v) := (h.setReg hw).setReg hw

theorem loadRegs {base n : Nat} (h : SameExcept l s t) (hw : .v ∈ l := by simp [elemsWritten]) :
    SameExcept l s (t.loadRegs base n) := by
  induction n with
  | zero => exact h
  | succ n ih => exact ih.setReg hw

theorem drawn {x y n : Nibble} (h : SameExcept l s t) (hd : .disp ∈ l := by simp [elemsWritten])
    (hv : .v ∈ l := by simp [elemsWritten]) (hp : .pc ∈ l := by simp [elemsWritten]) :
    SameExcept l s (t.drawn x y n) := ((h.setDisp hd).setReg hv).advance hp

end SameExcept

/-- Settles O54: along each instruction's updates, every element written stands in its row; where the instruction can
fault, the inversion of its check gives the updates of the branch that completed. -/
theorem instructionsChangeOnlyWhatTheyName : Obligations.InstructionsChangeOnlyWhatTheyName := by
  intro i s t h
  cases i with
  | cls => cases h; exact SameExcept.refl.setDisp.advance
  | ret =>
    by_cases hd : 0 < s.depth.val
    · rw [exec_ret_of_live s hd (by omega)] at h
      cases h; exact SameExcept.refl.setStack.setPc
    · rw [exec_ret_of_empty s hd] at h
      cases h
  | call nnn =>
    by_cases hd : s.depth.val < 16
    · rw [exec_call_of_room s nnn hd] at h
      cases h; exact SameExcept.refl.setStack.setPc
    · rw [exec_call_of_full s nnn hd] at h
      cases h
  | jp | jpV0 => cases h; exact SameExcept.refl.setPc
  | seImm | sneImm | seReg | sneReg => cases h; exact SameExcept.refl.skipIf
  | ldImm | addImm | ldReg | or | and | xor | ldVxDt => cases h; exact SameExcept.refl.setReg.advance
  | addReg | sub | shr | subn | shl => cases h; exact SameExcept.refl.flagThenResult.advance
  | rnd => cases h; exact SameExcept.refl.setReg.setDraws.advance
  | ldI | ldF => cases h; exact SameExcept.refl.setI.advance
  | addI => cases h; exact SameExcept.refl.setReg.setI.advance
  | ldDtVx => cases h; exact SameExcept.refl.setDt.advance
  | ldStVx => cases h; exact SameExcept.refl.setSt.advance
  | ldVxK => cases h; exact SameExcept.refl.setMode.setWaitReg
  | drw x y n =>
    rw [exec_drw] at h
    split at h
    · cases h; exact SameExcept.refl.drawn
    · cases h
  | skp | sknp =>
    simp only [exec_skp, exec_sknp] at h
    obtain ⟨_, hb⟩ := State.withKey_next h
    cases hb; exact SameExcept.refl.skipIf
  | ldB | stRegs =>
    obtain ⟨_, hb⟩ := State.inRange_next h
    cases hb; exact SameExcept.refl.setMem.advance
  | ldRegs =>
    obtain ⟨_, hb⟩ := State.inRange_next h
    cases hb; exact SameExcept.refl.loadRegs.advance

end Sys2Proof.Machine

/-! ## Drawing (R162, R163): a sprite is the list of cells its 1 bits fall on, each toggled in turn -/

namespace Sys2Proof.Machine

/-- What one 1 bit does to the display and the collision flag (R162). -/
def toggle (a : Display × Bool) (p : Fin 64 × Fin 32) : Display × Bool :=
  (Display.flip a.1 p.1 p.2, a.2 || Display.cell a.1 p.1 p.2)

/-- The cells the 1 bits of a sprite row fall on, in the order they are drawn. -/
def rowTargets (policy : Config.EdgePolicy) (x0 y0 : Byte) (r : Nat) (b : Byte) : List (Fin 64 × Fin 32) :=
  (List.range 8).filterMap fun c => if b.getLsbD (7 - c) then targetCell policy x0 y0 r c else none

/-- The cells the 1 bits of the sprite's rows from `r` on fall on, in the order they are drawn. -/
def spriteTargets (policy : Config.EdgePolicy) (x0 y0 : Byte) : Nat → List Byte → List (Fin 64 × Fin 32)
  | _, [] => []
  | r, b :: bs => rowTargets policy x0 y0 r b ++ spriteTargets policy x0 y0 (r + 1) bs

/-! ### Drawing toggles the targets -/

section folds
variable (policy : Config.EdgePolicy) (x0 y0 : Byte)

theorem drawRow_eq_foldl_toggle (r : Nat) (b : Byte) (a : Display × Bool) :
    drawRow policy x0 y0 r b a = (rowTargets policy x0 y0 r b).foldl toggle a := by
  rw [drawRow, rowTargets, List.foldl_filterMap]
  congr 1
  funext a c
  unfold drawBit
  split
  · cases targetCell policy x0 y0 r c <;> rfl
  · rfl

theorem drawRows_eq_foldl_toggle (r : Nat) (bs : List Byte) (a : Display × Bool) :
    drawRows policy x0 y0 r bs a = (spriteTargets policy x0 y0 r bs).foldl toggle a := by
  induction bs generalizing r a with
  | nil => rfl
  | cons b bs ih => rw [drawRows, ih, drawRow_eq_foldl_toggle, spriteTargets, List.foldl_append]

theorem drawSprite_eq_foldl_toggle (bs : List Byte) (d : Display) :
    drawSprite policy x0 y0 bs d = (spriteTargets policy x0 y0 0 bs).foldl toggle (d, false) :=
  drawRows_eq_foldl_toggle policy x0 y0 0 bs (d, false)

end folds

/-- Toggling distinct cells turns exactly those over. -/
theorem cell_foldl_toggle {ps : List (Fin 64 × Fin 32)} (hnd : ps.Nodup) (a : Display × Bool) (x : Fin 64) (y : Fin 32) :
    Display.cell (ps.foldl toggle a).1 x y = true ↔ ¬(Display.cell a.1 x y = true ↔ (x, y) ∈ ps) := by
  induction ps generalizing a with
  | nil => simp
  | cons p ps ih =>
    obtain ⟨hp, hnd⟩ := List.nodup_cons.1 hnd
    rw [List.foldl_cons, ih hnd, toggle, Display.cell_flip, List.mem_cons]
    by_cases hxy : (x, y) = p
    · subst hxy; simp [hp]
    · have : ¬(x = p.1 ∧ y = p.2) := fun c => hxy (Prod.ext c.1 c.2)
      simp [this, hxy]

/-- Toggling distinct cells reports a collision exactly if one of them was on at the start. -/
theorem collision_foldl_toggle {ps : List (Fin 64 × Fin 32)} (hnd : ps.Nodup) (a : Display × Bool) :
    (ps.foldl toggle a).2 = true ↔ a.2 = true ∨ ∃ x y, Display.cell a.1 x y = true ∧ (x, y) ∈ ps := by
  induction ps generalizing a with
  | nil => simp
  | cons p ps ih =>
    obtain ⟨hp, hnd⟩ := List.nodup_cons.1 hnd
    have hkeep : ∀ x y, (x, y) ∈ ps → Display.cell (toggle a p).1 x y = Display.cell a.1 x y := by
      intro x y hxy
      rw [toggle, Display.cell_flip, if_neg]
      rintro ⟨rfl, rfl⟩
      exact hp hxy
    rw [List.foldl_cons, ih hnd]
    constructor
    · rintro (h | ⟨x, y, hc, hxy⟩)
      · rcases Bool.or_eq_true_iff.1 h with h | h
        · exact .inl h
        · exact .inr ⟨p.1, p.2, h, List.mem_cons_self⟩
      · exact .inr ⟨x, y, hkeep x y hxy ▸ hc, List.mem_cons_of_mem p hxy⟩
    · rintro (h | ⟨x, y, hc, hxy⟩)
      · exact .inl (by simp [toggle, h])
      · rcases List.mem_cons.1 hxy with rfl | hxy
        · exact .inl (by simp [toggle, hc])
        · exact .inr ⟨x, y, (hkeep x y hxy).trans hc, hxy⟩

/-! ### The targets under WRAP (R163) -/

section wrap
variable {x0 y0 : Byte} {r : Nat} {cx : Fin 64} {cy : Fin 32}

theorem mem_rowTargets_wrap {b : Byte} : (cx, cy) ∈ rowTargets .wrap x0 y0 r b ↔
    ∃ c < 8, b.getLsbD (7 - c) = true ∧ cx.val = (x0.toNat + c) % 64 ∧ cy.val = (y0.toNat + r) % 32 := by
  simp only [rowTargets, targetCell, List.mem_filterMap, List.mem_range, Option.ite_none_right_eq_some,
    Option.some.injEq, Prod.mk.injEq, Fin.ext_iff, Fin.val_ofNat, eq_comm (b := cx.val), eq_comm (b := cy.val)]

theorem mem_spriteTargets_wrap {bs : List Byte} : (cx, cy) ∈ spriteTargets .wrap x0 y0 r bs ↔
    ∃ k, ∃ h : k < bs.length, ∃ c < 8, bs[k].getLsbD (7 - c) = true ∧
      cx.val = (x0.toNat + c) % 64 ∧ cy.val = (y0.toNat + (r + k)) % 32 := by
  induction bs generalizing r with
  | nil => simp [spriteTargets]
  | cons b bs ih =>
    rw [spriteTargets, List.mem_append, mem_rowTargets_wrap, ih]
    constructor
    · rintro (h | ⟨k, hk, h⟩)
      · exact ⟨0, Nat.succ_pos _, h⟩
      · exact ⟨k + 1, Nat.succ_lt_succ hk, by simpa [Nat.add_assoc, Nat.add_comm 1 k] using h⟩
    · rintro ⟨_ | k, hk, h⟩
      · exact .inl h
      · exact .inr ⟨k, Nat.lt_of_succ_lt_succ hk, by simpa [Nat.add_assoc, Nat.add_comm 1 k] using h⟩

/-- The eight columns of a row are distinct modulo 64. -/
theorem nodup_rowTargets_wrap (b : Byte) : (rowTargets .wrap x0 y0 r b).Nodup := by
  rw [rowTargets, List.Nodup, List.pairwise_filterMap]
  refine List.nodup_range.imp_of_mem fun {c c'} hc hc' hne p hp q hq hpq => hne ?_
  simp only [targetCell, Option.ite_none_right_eq_some, Option.some.injEq] at hp hq
  have hx : (x0.toNat + c) % 64 = (x0.toNat + c') % 64 := by
    simpa using congrArg (fun t => t.1.val) (hp.2.trans (hpq.trans hq.2.symm))
  have := List.mem_range.1 hc
  have := List.mem_range.1 hc'
  omega

/-- Up to 32 rows are distinct modulo 32, so no two 1 bits of a sprite fall on one cell. -/
theorem nodup_spriteTargets_wrap (bs : List Byte) (h : bs.length ≤ 32) : (spriteTargets .wrap x0 y0 r bs).Nodup := by
  induction bs generalizing r with
  | nil => exact List.nodup_nil
  | cons b bs ih =>
    rw [List.length_cons] at h
    refine (nodup_rowTargets_wrap b).append (ih (by omega)) ?_
    rintro ⟨cx, cy⟩ hrow hrest
    obtain ⟨_, _, _, _, hy⟩ := mem_rowTargets_wrap.1 hrow
    obtain ⟨k, hk, _, _, _, _, hy'⟩ := mem_spriteTargets_wrap.1 hrest
    omega

/-- The targets of a sprite in memory are the cells it covers (R162). -/
theorem mem_spriteTargets_iff_spriteCovers {m : Memory} {a n : Nat} :
    (cx, cy) ∈ spriteTargets .wrap x0 y0 0 (m.readBytes a n) ↔ spriteCovers m a n x0 y0 cx cy := by
  simp [mem_spriteTargets_wrap, spriteCovers]

end wrap

/-! ### DXYN -/

section sprite
variable (s : State) (x y n : Nibble)

/-- The cells DXYN toggles, under the edge policy the machine takes (D5, entry 8). -/
def State.spriteTargets (s : State) (x y n : Nibble) : List (Fin 64 × Fin 32) :=
  Machine.spriteTargets .wrap (s.reg x) (s.reg y) 0 (s.mem.readBytes (s.ea 0) n.toNat)

theorem State.sprite_eq_foldl_toggle : s.sprite x y n = (s.spriteTargets x y n).foldl toggle (s.disp, false) :=
  drawSprite_eq_foldl_toggle ..

theorem State.nodup_spriteTargets : (s.spriteTargets x y n).Nodup :=
  nodup_spriteTargets_wrap _ (by rw [Memory.readBytes_length]; omega)

theorem State.mem_spriteTargets {cx : Fin 64} {cy : Fin 32} : (cx, cy) ∈ s.spriteTargets x y n ↔
    spriteCovers s.mem (s.ea 0) n.toNat (s.reg x) (s.reg y) cx cy := mem_spriteTargets_iff_spriteCovers

@[simp] theorem drawn_disp : (s.drawn x y n).disp = (s.sprite x y n).1 := rfl

@[simp] theorem drawn_pc : (s.drawn x y n).pc = s.pc + 2 := rfl

theorem drawn_flag : (s.drawn x y n).reg 0xF = flagByte (s.sprite x y n).2 := by rw [drawn_reg]; exact if_pos rfl

theorem drawn_reg_of_ne {r : Nibble} (h : r ≠ 0xF) : (s.drawn x y n).reg r = s.reg r := by
  rw [drawn_reg]; exact if_neg h

end sprite

theorem flagByte_eq_one {b : Bool} : flagByte b = 1 ↔ b = true := by cases b <;> decide

theorem flagByte_eq_one_or_zero (b : Bool) : flagByte b = 1 ∨ flagByte b = 0 := by cases b <;> decide

/-- The highest address of a sprite of at least one row. -/
theorem ea_sub_one (s : State) {n : Nibble} (h : n ≠ 0) : s.ea (n.toNat - 1) = s.i.toNat + n.toNat - 1 := by
  have : n.toNat ≠ 0 := fun c => h (BitVec.toNat_inj.1 c)
  simp only [State.ea]
  omega

/-- Settles O47: the sprite's 1 bits fall on distinct cells, so each covered cell is toggled once and a collision is a
covered cell that was on before the drawing. -/
theorem drawTogglesCoveredCells : Obligations.DrawTogglesCoveredCells := by
  intro s x y n
  constructor
  · intro hin
    have hcond : n = 0#4 ∨ s.ea (n.toNat - 1) ≤ 0xFFF := by
      by_cases hn : n = 0
      · exact .inl hn
      · exact .inr (ea_sub_one s hn ▸ hin.resolve_left hn)
    have hexec : exec (.drw x y n) s = .next (s.drawn x y n) := by rw [exec_drw, if_pos hcond]
    refine ⟨s.drawn x y n, hexec, fun cx cy => ?_, ?_, ?_, fun r => drawn_reg_of_ne s x y n, drawn_pc s x y n,
      instructionsChangeOnlyWhatTheyName _ _ _ hexec⟩
    · rw [drawn_disp, State.sprite_eq_foldl_toggle, cell_foldl_toggle (s.nodup_spriteTargets x y n),
        State.mem_spriteTargets]
    · rw [drawn_flag, flagByte_eq_one, State.sprite_eq_foldl_toggle,
        collision_foldl_toggle (s.nodup_spriteTargets x y n)]
      simp [State.mem_spriteTargets]
    · rw [drawn_flag]
      exact flagByte_eq_one_or_zero _
  · intro hn hout
    rw [← ea_sub_one s hn] at hout ⊢
    exact (exec_drw s x y n).trans (if_neg (not_or.2 ⟨hn, Nat.not_le.2 hout⟩))

end Sys2Proof.Machine

/-! ## What a completed instruction that can fault did -/

namespace Sys2Proof.Machine

section completed
variable {s t : State}

/-- A call that completed found a free slot (R112). -/
theorem exec_call_next {nnn : Addr12} (h : exec (.call nnn) s = .next t) : ∃ hd : s.depth.val < 16, t =
    (s.setStack (s.stack.set s.depth.val s.pc hd) ⟨s.depth.val + 1, Nat.succ_lt_succ hd⟩).setPc (zext12 nnn) := by
  by_cases hd : s.depth.val < 16
  · rw [exec_call_of_room s nnn hd] at h
    cases h; exact ⟨hd, rfl⟩
  · rw [exec_call_of_full s nnn hd] at h
    cases h

/-- A return that completed found a live slot (R114). -/
theorem exec_ret_next (h : exec .ret s = .next t) : ∃ hb : s.depth.val - 1 < 16, 0 < s.depth.val ∧ t =
    (s.setStack s.stack ⟨s.depth.val - 1, Nat.lt_succ_of_lt hb⟩).setPc (s.stack[s.depth.val - 1] + retAdvance) := by
  by_cases hd : 0 < s.depth.val
  · have hb : s.depth.val - 1 < 16 := by omega
    rw [exec_ret_of_live s hd hb] at h
    cases h; exact ⟨hb, hd, rfl⟩
  · rw [exec_ret_of_empty s hd] at h
    cases h

/-- A draw that completed drew (R162). -/
theorem exec_drw_next {x y n : Nibble} (h : exec (.drw x y n) s = .next t) : t = s.drawn x y n := by
  rw [exec_drw] at h
  split at h
  · cases h; rfl
  · cases h

end completed

end Sys2Proof.Machine

/-! ## The program counter after an instruction (R26, R114) -/

namespace Sys2Proof.Machine

/-- The top slot of a stack that holds an address (R27). -/
theorem topOfStack_eq (s : State) (hb : s.depth.val - 1 < 16) : topOfStack s = s.stack[s.depth.val - 1] := by
  simp [topOfStack, hb]

/-- Below 16 the whole byte and its low four bits name the same key (R171). -/
theorem keyDown_setWidth (s : State) {v : Byte} (h : v.toNat ≤ 15) : s.keyDown (v.setWidth 4) = keyAt s v := by
  have hv : v.toNat % 16 = v.toNat := Nat.mod_eq_of_lt (by omega)
  have hl : v.toNat < 16 := by omega
  simp [State.keyDown, keyAt, hv, hl]

theorem zext12_eq_ofNat (nnn : Addr12) : zext12 nnn = BitVec.ofNat 16 nnn.toNat :=
  BitVec.eq_of_toNat_eq (by rw [zext12_toNat, BitVec.toNat_ofNat]; omega)

/-- The target of BNNN needs no more than 16 bits (R113). -/
theorem zext12_add_zext8 (nnn : Addr12) (v : Byte) : zext12 nnn + zext8 v = BitVec.ofNat 16 (nnn.toNat + v.toNat) :=
  BitVec.eq_of_toNat_eq (by rw [BitVec.toNat_add, zext12_toNat, zext8_toNat, BitVec.toNat_ofNat])

/-- A skip on the negated condition moves by the two distances exchanged (R120). -/
theorem skipIf_not_pc (s : State) (c : Bool) : (s.skipIf !c).pc = if c = true then s.pc + 2 else s.pc + 4 := by
  cases c <;> rfl

/-- Settles O56: each completed branch of an instruction writes `PC` once, with the entry of the table. -/
theorem programCounterFollowsTable : Obligations.ProgramCounterFollowsTable := by
  intro i s t h
  cases i with
  | jp nnn => cases h; exact zext12_eq_ofNat nnn
  | jpV0 nnn => cases h; exact zext12_add_zext8 nnn _
  | call nnn =>
    obtain ⟨_, rfl⟩ := exec_call_next h
    exact zext12_eq_ofNat nnn
  | ret =>
    obtain ⟨hb, _, rfl⟩ := exec_ret_next h
    exact congrArg (· + 2) (topOfStack_eq s hb).symm
  | seImm | seReg => cases h; simp [pcAfter]
  | sneImm | sneReg => cases h; exact (skipIf_not_pc s _).trans (by simp only [pcAfter, beq_iff_eq])
  | skp x =>
    rw [exec_skp] at h
    obtain ⟨hk, hb⟩ := State.withKey_next h
    cases hb; rw [State.skipIf_pc, keyDown_setWidth s hk]; rfl
  | sknp x =>
    rw [exec_sknp] at h
    obtain ⟨hk, hb⟩ := State.withKey_next h
    cases hb; rw [skipIf_not_pc, keyDown_setWidth s hk]; rfl
  | ldVxK => cases h; rfl
  | cls | ldImm | addImm | ldReg | or | and | xor | addReg | sub | shr | subn | shl | rnd => cases h; rfl
  | ldI | addI | ldF | ldVxDt | ldDtVx | ldStVx => cases h; rfl
  | drw => rw [exec_drw_next h]; rfl
  | ldB | stRegs =>
    obtain ⟨_, hb⟩ := State.inRange_next h
    cases hb; rfl
  | ldRegs x =>
    obtain ⟨_, hb⟩ := State.inRange_next h
    cases hb; rw [State.loadRegs_v]; rfl

/-- Settles O29: a live stack takes the branch that pops, an empty one faults. -/
theorem returnResumesAfterPoppedAddress : Obligations.ReturnResumesAfterPoppedAddress := by
  intro s
  constructor
  · intro hsp
    have hd : 0 < s.depth.val := by unfold State.sp at hsp; omega
    have hexec := exec_ret_of_live s hd (by omega)
    refine ⟨_, hexec, programCounterFollowsTable _ _ _ hexec, ?_, rfl, instructionsChangeOnlyWhatTheyName _ _ _ hexec⟩
    simp only [State.sp, State.setPc_depth, State.setStack_depth]
    omega
  · intro hsp
    exact exec_ret_of_empty s (by unfold State.sp at hsp; omega)

end Sys2Proof.Machine

/-! ## Registers (R22, R23): what an instruction leaves of them -/

namespace Sys2Proof.Machine

/-- Settles O55: where the row of R22 is empty the frame of R13 says it; elsewhere each write names a register of the
row. -/
theorem instructionsWriteOnlyTheirRegisters : Obligations.InstructionsWriteOnlyTheirRegisters := by
  intro i s t r h hr
  cases i with
  | cls | ret | jp | call | seImm | sneImm | seReg | sneReg | ldI | jpV0 | skp | sknp =>
    exact instructionsChangeOnlyWhatTheyName _ s t h .v (by simp [elemsWritten]) r
  | ldVxK | ldDtVx | ldStVx | ldF | ldB | stRegs =>
    exact instructionsChangeOnlyWhatTheyName _ s t h .v (by simp [elemsWritten]) r
  | ldImm | addImm | ldReg | or | and | xor | rnd | ldVxDt | addI =>
    cases h; exact (State.setReg_reg ..).trans (if_neg hr)
  | addReg | sub | shr | subn | shl =>
    obtain ⟨hx, hf⟩ := not_or.1 hr
    cases h; exact (State.flagThenResult_reg ..).trans ((if_neg hx).trans (if_neg hf))
  | drw x y n => rw [exec_drw_next h]; exact drawn_reg_of_ne s x y n hr
  | ldRegs x =>
    obtain ⟨_, hb⟩ := State.inRange_next h
    have hx : ¬ r.toNat < x.toNat + 1 := fun c => hr (Nat.le_of_lt_succ c)
    cases hb; exact (State.loadRegs_reg s _ _ (by omega) r).trans (if_neg hx)

end Sys2Proof.Machine

/-! ## The key wait (R33, R173, R177) -/

namespace Sys2Proof.Machine

namespace State

variable (s : State)

@[simp] theorem beginOp_mode : s.beginOp.mode = s.mode := rfl
@[simp] theorem beginTick_mode : s.beginTick.mode = s.mode := rfl
@[simp] theorem beginTick_opcode : s.beginTick.opcode = s.opcode := rfl
@[simp] theorem timerStep_mode : s.timerStep.mode = s.mode := rfl
@[simp] theorem newCore_mode : s.newCore.mode = .running := rfl
@[simp] theorem placeImage_mode (bytes : List Byte) : (s.placeImage bytes).mode = s.mode := rfl
@[simp] theorem loadFailed_mode (bytes : List Byte) : (s.loadFailed bytes).mode = s.mode := rfl
@[simp] theorem keyRelease_mode (k : Nibble) : (s.keyRelease k).mode = s.mode := rfl

/-- A key press leaves the core running, whether or not it waited (R174, R175). -/
@[simp] theorem keyPress_mode (k : Nibble) : (s.keyPress k).mode = .running := by
  cases hm : s.mode with
  | running => rw [keyPress_running k hm, setKey_mode, hm]
  | waitingForKey => rw [keyPress_waiting k hm]; rfl

end State

/-- An instruction that completes on a running core leaves it waiting exactly if it is FX0A (R36, R173). -/
theorem exec_waits_iff {i : Instr} {s t : State} (h : exec i s = .next t) (hm : s.mode = .running) :
    t.mode = .waitingForKey ↔ ∃ x, i = .ldVxK x := by
  by_cases hx : ∃ x, i = .ldVxK x
  · obtain ⟨x, rfl⟩ := hx
    cases h; simp
  · have hw : Elem.mode ∉ elemsWritten i := by
      cases i with
      | ldVxK x => exact absurd ⟨x, rfl⟩ hx
      | _ => simp [elemsWritten]
    obtain ⟨hmode, _⟩ := instructionsChangeOnlyWhatTheyName i s t h .mode hw
    simp [hx, hmode, hm]

/-- A tick of a running core ends waiting exactly if the word at `PC` is an FX0A (R173). -/
theorem runTick_waits_iff {s t : State} (h : s.runTick = .next t) (hm : s.mode = .running) :
    t.mode = .waitingForKey ↔ ∃ x, decode s.opcode = .ok (.ldVxK x) := by
  obtain ⟨i, u, -, hd, he, rfl⟩ := runTick_next h
  simp [exec_waits_iff he hm, hd]

/-- Settles O25: of the host's operations only a tick's instruction can begin a wait, and only a key press or the reset
can end one. -/
theorem keyWaitTransitions : Obligations.KeyWaitTransitions := by
  intro s t h
  obtain ⟨ho, rfl⟩ | ⟨bytes, ho, -, ⟨-, rfl⟩ | ⟨-, rfl⟩⟩ | ⟨ho, ht⟩ | ⟨k, ho, rfl⟩ | ⟨k, ho, rfl⟩ | ⟨ho | ho, rfl⟩ :=
    step_next h
  case inr.inr.inl =>
    cases hm : s.mode with
    | waitingForKey =>
      have hstay : t = s.beginTick := by simpa [State.tick, hm] using ht.symm
      simp [hstay, hm, ho]
    | running =>
      have hrun : s.beginTick.runTick = .next t := by simpa [State.tick, hm] using ht
      simpa [ho] using! runTick_waits_iff hrun hm
  all_goals simp [ho]

end Sys2Proof.Machine

/-! ## The invariants of R37 -/

namespace Sys2Proof.Machine

/-! ### What the parts of a step do to them -/

namespace Inv

variable {s : State}

/-- The state after reset, whatever the host's operations and the number of bytes drawn (R38). -/
theorem reset (ops : List HostOp) (n : Nat) : Inv ((State.reset.setScript ops).setDraws n) where
  memory := rfl
  pcBound := show (0x0200#16).toNat ≤ 0x10FE by decide
  stackBound := fun _ _ h => absurd h (Nat.not_lt_zero _)
  waiting := fun h => nomatch h
  loadClosed := fun h => nomatch h

theorem beginOp (h : Inv s) : Inv s.beginOp := ⟨h.memory, h.pcBound, h.stackBound, h.waiting, h.loadClosed⟩

theorem timerStep (h : Inv s) : Inv s.timerStep := ⟨h.memory, h.pcBound, h.stackBound, h.waiting, h.loadClosed⟩

theorem setKey (h : Inv s) (k : Nibble) (b : Bool) : Inv (s.setKey k b) :=
  ⟨h.memory, h.pcBound, h.stackBound, h.waiting, h.loadClosed⟩

theorem closeLoading (h : Inv s) : Inv (s.setLoadOpen false) :=
  ⟨h.memory, h.pcBound, h.stackBound, h.waiting, fun _ => rfl⟩

theorem loadFailed (h : Inv s) (bytes : List Byte) : Inv (s.loadFailed bytes) :=
  ⟨h.memory, h.pcBound, h.stackBound, h.waiting, fun _ => rfl⟩

theorem beginTick (h : Inv s) : Inv s.beginTick := h.beginOp.closeLoading

/-- Within the contract the core does not wait, so an image need not leave an FX0A where it was (R101, D20). -/
theorem placeImage (h : Inv s) (ho : s.loadOpen = true) {bytes : List Byte} (hl : bytes.length ≤ 3584) :
    Inv (s.placeImage bytes) := by
  have hrun : s.mode ≠ .waitingForKey := fun hm => by simp [h.loadClosed hm] at ho
  exact ⟨Memory.wf_writeBytes h.memory (by simp only [Config.progBase]; omega), h.pcBound, h.stackBound,
    fun hm => absurd hm hrun, fun hm => absurd hm hrun⟩

/-- A press that ends a wait advances from a word that was fetched, so `PC` is at most 0x1000 (R175). -/
theorem keyPress (h : Inv s) (k : Nibble) : Inv (s.keyPress k) := by
  cases hm : s.mode with
  | running => rw [State.keyPress_running k hm]; exact h.setKey k true
  | waitingForKey =>
    obtain ⟨hpc, -⟩ := h.waiting hm
    have hle : (s.pc + 2).toNat ≤ 0x10FE := by bv_omega
    rw [State.keyPress_waiting k hm]
    exact ⟨h.memory, hle, h.stackBound, (fun c => nomatch c), (fun c => nomatch c)⟩

end Inv

/-! ### What an instruction does to them -/

section completed
variable {i : Instr} {s t : State}

/-- An instruction that completes has written bytes inside memory, or none (R13, R55). -/
theorem exec_mem (h : exec i s = .next t) :
    ∃ a bytes, a + bytes.length ≤ 4096 ∧ t.mem = s.mem.writeBytes a bytes := by
  have untouched (hk : t.mem = s.mem) : ∃ a bytes, a + bytes.length ≤ 4096 ∧ t.mem = s.mem.writeBytes a bytes :=
    ⟨0, [], by decide, hk⟩
  cases i with
  | ldB x =>
    obtain ⟨hin, hb⟩ := State.inRange_next h
    cases hb
    exact ⟨s.ea 0, decimalDigits (s.reg x), by simp [State.ea, decimalDigits] at hin ⊢; omega, rfl⟩
  | stRegs x =>
    obtain ⟨hin, hb⟩ := State.inRange_next h
    cases hb
    exact ⟨s.ea 0, s.regsUpTo x, by simp [State.ea] at hin ⊢; omega, rfl⟩
  | call => obtain ⟨_, rfl⟩ := exec_call_next h; exact untouched rfl
  | ret => obtain ⟨_, _, rfl⟩ := exec_ret_next h; exact untouched rfl
  | drw => exact untouched (exec_drw_next h ▸ rfl)
  | skp | sknp =>
    simp only [exec_skp, exec_sknp] at h
    obtain ⟨_, hb⟩ := State.withKey_next h
    cases hb; exact untouched rfl
  | ldRegs x =>
    obtain ⟨_, hb⟩ := State.inRange_next h
    cases hb; exact untouched (by rw [State.loadRegs_v]; rfl)
  | _ => cases h; exact untouched rfl

theorem exec_keeps_wf (hs : s.mem.wf = true) (h : exec i s = .next t) : t.mem.wf = true := by
  obtain ⟨a, bytes, hin, hmem⟩ := exec_mem h
  exact hmem ▸ Memory.wf_writeBytes hs hin

/-- Only 2NNN and 00EE move the stack, and what 2NNN pushes is its own address (R112, R114). -/
theorem exec_stackBound (hs : Inv s) (hpc : s.pc.toNat ≤ 0xFFE) (h : exec i s = .next t)
    (j : Nat) (hj : j < 16) (hlive : j < t.depth.val) : t.stack[j].toNat ≤ 0xFFE := by
  cases i with
  | call nnn =>
    obtain ⟨hd, rfl⟩ := exec_call_next h
    by_cases hjd : j = s.depth.val
    · simpa [hjd] using hpc
    · have hbelow : j < s.depth.val := Nat.lt_of_le_of_ne (Nat.le_of_lt_succ hlive) hjd
      simpa [Vector.getElem_set, Ne.symm hjd] using hs.stackBound j hj hbelow
  | ret =>
    obtain ⟨_, _, rfl⟩ := exec_ret_next h
    exact hs.stackBound j hj (Nat.lt_of_lt_of_le hlive (Nat.sub_le ..))
  | _ =>
    obtain ⟨hstack, hdepth⟩ := instructionsChangeOnlyWhatTheyName _ s t h .stack (by simp [elemsWritten])
    simpa [hstack] using hs.stackBound j hj (hdepth ▸ hlive)

/-- From a word that was fetched every entry of the table but the return's is at most 0xFFF + 0xFF, which BNNN reaches
(R26, R113). -/
theorem pcAfter_le (hi : i ≠ .ret) (hpc : s.pc.toNat ≤ 0xFFE) : (pcAfter i s).toNat ≤ 0x10FE := by
  have hnext : (s.pc + 2).toNat ≤ 0x10FE := by bv_omega
  have hskip : (s.pc + 4).toNat ≤ 0x10FE := by bv_omega
  cases i with
  | ret => exact absurd rfl hi
  | jp nnn | call nnn | jpV0 nnn =>
    simp only [pcAfter, BitVec.toNat_ofNat]
    omega
  | seImm | sneImm | seReg | sneReg | skp | sknp =>
    simp only [pcAfter]
    split <;> assumption
  | ldVxK => exact Nat.le_trans hpc (by decide)
  | _ => exact hnext

/-- A completed instruction leaves `PC` within R37's bound; a return resumes after a live slot (R114). -/
theorem exec_pc_le (hs : Inv s) (hpc : s.pc.toNat ≤ 0xFFE) (h : exec i s = .next t) : t.pc.toNat ≤ 0x10FE := by
  cases i with
  | ret =>
    obtain ⟨hb, hd, rfl⟩ := exec_ret_next h
    have htop := hs.stackBound _ hb (by omega)
    simp only [State.setPc_pc, retAdvance]
    bv_omega
  | _ => exact programCounterFollowsTable _ s t h ▸ pcAfter_le (by simp) hpc

/-- No instruction opens the loading window (R101, D20). -/
theorem exec_loadOpen (h : exec i s = .next t) : t.loadOpen = s.loadOpen := by
  have hhost : Elem.host ∉ elemsWritten i := by cases i <;> simp [elemsWritten]
  obtain ⟨_, _, hload, _⟩ := instructionsChangeOnlyWhatTheyName i s t h .host hhost
  exact hload

/-- The instruction fetched from a running core keeps the invariants; FX0A leaves `PC` on itself (R173). -/
theorem Inv.exec (hs : Inv s) (hm : s.mode = .running) (ho : s.loadOpen = false) (hpc : s.pc.toNat ≤ 0xFFE)
    (hd : decode s.opcode = .ok i) (h : exec i s = .next t) : Inv t where
  memory := exec_keeps_wf hs.memory h
  pcBound := exec_pc_le hs hpc h
  stackBound := exec_stackBound hs hpc h
  waiting hw := by
    obtain ⟨x, rfl⟩ := (exec_waits_iff h hm).1 hw
    cases h
    exact ⟨hpc, hd⟩
  loadClosed _ := (exec_loadOpen h).trans ho

end completed

theorem Inv.tick {s t : State} (hs : Inv s) (ho : s.loadOpen = false) (h : s.tick = .next t) : Inv t := by
  obtain ⟨-, rfl⟩ | ⟨hm, i, u, hpc, hd, he, rfl⟩ := tick_next h
  · exact hs
  · exact (hs.exec hm ho hpc hd he).timerStep

/-- Settles O14: memory lists no cell, the stack is empty, `PC` is 0x200 and the mode RUNNING. -/
theorem resetSatisfiesInvariants : Obligations.ResetSatisfiesInvariants := fun ops => Inv.reset ops 0

/-- Settles O15: each of the host's operations keeps the invariants, in the order of `step_next`: reset, the two loads,
a tick, the two key events, and the two reads. -/
theorem stepKeepsInvariants : Obligations.StepKeepsInvariants := by
  intro s t hs h
  obtain ⟨-, rfl⟩ | ⟨bytes, -, ho, ⟨hl, rfl⟩ | ⟨-, rfl⟩⟩ | ⟨-, ht⟩ | ⟨k, -, rfl⟩ | ⟨k, -, rfl⟩ | ⟨-, rfl⟩ := step_next h
  · exact Inv.reset _ _
  · exact (hs.beginOp.placeImage ho hl).closeLoading
  · exact hs.beginOp.loadFailed bytes
  · exact hs.beginTick.tick rfl ht
  · exact hs.beginTick.keyPress k
  · exact hs.beginTick.setKey k false
  · exact hs.beginOp

/-- Settles O16, by induction on the run: O14 at its start, O15 at each step. -/
theorem reachableStatesSatisfyInvariants : Obligations.ReachableStatesSatisfyInvariants := by
  intro s h
  induction h with
  | start ops => exact resetSatisfiesInvariants ops
  | step _ one ih => exact stepKeepsInvariants _ _ ih one

end Sys2Proof.Machine

/-! ## The values after reset (R20, R38) -/

namespace Sys2Proof.Machine

/-- Settles O20: unlisted addresses read as the font, which ends at address 80, and every vector of the reset state holds
one value throughout. -/
theorem resetValues : Obligations.ResetValues := by
  have hmem : ∀ a, State.reset.mem.read a = font.getD a 0 := fun _ => rfl
  have hfont : font.length = 80 := rfl
  refine ⟨fun a _ => hmem a, fun a ha => ?_, fun r => ?_, rfl, rfl, fun j hj => ?_, rfl, rfl, rfl, Display.cell_clear,
    fun k => ?_, rfl, rfl⟩
  · rw [hmem, List.getD_eq_default _ _ (by omega)]
  · simp [State.reg, State.reset]
  · simp [State.reset]
  · simp [State.keyDown, State.reset]

end Sys2Proof.Machine

/-! ## Block transfers between registers and memory (R55, R153 to R156) -/

namespace Sys2Proof.Machine

/-- Bytes stored at rising addresses from `I`, then on to the next instruction: what FX33 and FX55 do past their range
check (R153, R154). -/
def State.stored (s : State) (bytes : List Byte) : State := (s.setMem (s.mem.writeBytes (s.ea 0) bytes)).advance

section stored
variable (s : State) {bytes : List Byte}

theorem stored_read_ea {k : Nat} (hwf : s.mem.wf = true) (hin : s.ea bytes.length ≤ 4096) (hk : k < bytes.length) :
    (s.stored bytes).mem.read (s.ea k) = bytes[k] := Memory.read_writeBytes hwf hin hk

theorem stored_read_outside {a : Nat} (h : a < s.ea 0 ∨ s.ea bytes.length ≤ a) :
    (s.stored bytes).mem.read a = s.mem.read a := Memory.read_writeBytes_outside h

theorem exec_ldB_eq_stored (x : Nibble) :
    exec (.ldB x) s = s.inRange 2 (.next (s.stored (decimalDigits (s.reg x)))) := rfl

theorem exec_stRegs_eq_stored (x : Nibble) :
    exec (.stRegs x) s = s.inRange x.toNat (.next (s.stored (s.regsUpTo x))) := rfl

end stored

/-- The bytes FX33 stores are the three digits themselves: each fits in a byte (R153). -/
theorem decimalDigits_map_toNat (v : Byte) :
    (decimalDigits v).map BitVec.toNat = [v.toNat / 100, v.toNat / 10 % 10, v.toNat % 10] := by
  simp only [decimalDigits, List.map_cons, List.map_nil, BitVec.toNat_ofNat, List.cons.injEq, and_true]
  omega

/-- Settles O42: the three bytes stored are the digits of VX. -/
theorem storeDecimalDigits : Obligations.StoreDecimalDigits := by
  intro s x hwf
  constructor
  · intro hle
    have hexec := (exec_ldB_eq_stored s x).trans (State.inRange_of_le hle)
    have hend : s.ea (decimalDigits (s.reg x)).length ≤ 4096 := Nat.succ_le_succ hle
    have hdigit (k : Nat) (hk : k < 3) : ((s.stored (decimalDigits (s.reg x))).mem.read (s.ea k)).toNat =
        [(s.reg x).toNat / 100, (s.reg x).toNat / 10 % 10, (s.reg x).toNat % 10][k] := by
      rw [stored_read_ea s hwf hend hk]
      simp only [← decimalDigits_map_toNat]
      exact (List.getElem_map BitVec.toNat).symm
    exact ⟨_, hexec, hdigit 0 (by decide), hdigit 1 (by decide), hdigit 2 (by decide),
      fun a ha => stored_read_outside s ha, rfl, instructionsChangeOnlyWhatTheyName _ _ _ hexec⟩
  · intro hgt
    exact (exec_ldB_eq_stored s x).trans (State.inRange_of_gt hgt)

/-- Settles O43: the `X + 1` bytes stored are V0 to VX in order. -/
theorem storeRegisters : Obligations.StoreRegisters := by
  intro s x hwf
  constructor
  · intro hle
    have hexec := (exec_stRegs_eq_stored s x).trans (State.inRange_of_le hle)
    have hlen : s.ea (s.regsUpTo x).length = s.ea x.toNat + 1 := by rw [State.regsUpTo_length]; rfl
    refine ⟨_, hexec, fun r hr => ?_, fun a ha => stored_read_outside s (by omega), rfl,
      instructionsChangeOnlyWhatTheyName _ _ _ hexec⟩
    have hr' : r.toNat < (s.regsUpTo x).length := by rw [State.regsUpTo_length]; omega
    rw [stored_read_ea s hwf (hlen ▸ Nat.succ_le_succ hle) hr', State.regsUpTo_getElem, BitVec.ofNat_toNat,
      BitVec.setWidth_eq]
  · intro hgt
    exact (exec_stRegs_eq_stored s x).trans (State.inRange_of_gt hgt)

/-- Settles O44: the block load writes the registers below `X + 1`, each from its own address. -/
theorem loadRegisters : Obligations.LoadRegisters := by
  intro s x
  constructor
  · intro hle
    have hexec := (exec_ldRegs s x).trans (State.inRange_of_le hle)
    refine ⟨_, hexec, fun r => ?_, programCounterFollowsTable _ _ _ hexec,
      instructionsChangeOnlyWhatTheyName _ _ _ hexec⟩
    rw [State.advance_reg, State.loadRegs_reg s _ _ (by omega)]
    simp only [Nat.lt_succ_iff]
    rfl
  · intro hgt
    exact (exec_ldRegs s x).trans (State.inRange_of_gt hgt)

end Sys2Proof.Machine

/-! ## The tick in RUNNING mode (R92 to R96) -/

namespace Sys2Proof.Machine

/-- The state a tick starts from differs in the model's own bookkeeping only (entries 1, 3, 4 and 32). -/
theorem beginTick_sameExcept_host (s : State) : SameExcept [.host] s s.beginTick := by
  intro e he
  cases e <;> simp [Elem.Same, State.beginTick, State.beginOp] at he ⊢

section running
variable {s : State}

theorem step_of_tick (ho : s.nextOp = .tick) : step s = s.beginTick.tick := by
  rw [step_eq, ho]; rfl

theorem tick_of_running (hm : s.mode = .running) : s.tick = s.runTick := by
  simp only [State.tick, hm]

theorem runTick_of_decode {i : Instr} (hpc : s.pc.toNat ≤ 0xFFE) (hd : decode s.opcode = .ok i) :
    s.runTick = finishTick (exec i s) := by
  simp only [State.runTick, if_neg (Nat.not_lt.2 hpc), hd]

end running

/-- Settles O6: the step is the tick from `beginTick`, which fetches the same two bytes at the same `PC`. -/
theorem stepExecutesDecodedInstruction : Obligations.StepExecutesDecodedInstruction := by
  intro s i ho hm hpc hd
  refine ⟨beginTick_sameExcept_host s, ?_⟩
  have hstep : step s = finishTick (exec i s.beginTick) :=
    (step_of_tick ho).trans ((tick_of_running (s := s.beginTick) hm).trans (runTick_of_decode hpc hd))
  rw [hstep]
  cases exec i s.beginTick <;> rfl

end Sys2Proof.Machine

/-! ## Decoding and encoding (R70 to R80) -/

namespace Sys2Proof

/-- Settles O1: the fields of each format read back, so the top nibble chooses the instruction's family and the literal
digits its entry there. -/
theorem decodeOfEncodeIsIdentity : Obligations.DecodeOfEncodeIsIdentity := by
  intro i
  cases i with
  | cls | ret => rfl
  | jp | call | ldI | jpV0 => simp [encode, decode]
  | seImm | sneImm | ldImm | addImm | rnd | drw => simp [encode, decode]
  | seReg => simp [encode, decode, decodeFamily5]
  | sneReg => simp [encode, decode, decodeFamily9]
  | ldReg | or | and | xor | addReg | sub | shr | subn | shl => simp [encode, decode, decodeFamily8]
  | skp | sknp => simp [encode, decode, decodeFamilyE]
  | ldVxDt | ldVxK | ldDtVx | ldStVx | addI | ldF | ldB | stRegs | ldRegs => simp [encode, decode, decodeFamilyF]

/-! ### A decoded word is built again from its fields -/

section encodeDecoded
variable {w : Word} {i : Instr}

/-- Format NNN with its family known. -/
theorem encodeNNN_of_op {op : Nibble} (hop : (fieldOp w).toNat = op.toNat) : encodeNNN op (fieldNNN w) = w := by
  rw [← BitVec.eq_of_toNat_eq hop, encodeNNN_fields]

/-- Format XNN with its family known. -/
theorem encodeXNN_of_op {op : Nibble} (hop : (fieldOp w).toNat = op.toNat) :
    encodeXNN op (fieldX w) (fieldNN w) = w := by
  rw [← BitVec.eq_of_toNat_eq hop, encodeXNN_fields]

/-- Format XYN with its family known. -/
theorem encodeXYN_of_op {op : Nibble} (hop : (fieldOp w).toNat = op.toNat) :
    encodeXYN op (fieldX w) (fieldY w) (fieldN w) = w := by
  rw [← BitVec.eq_of_toNat_eq hop, encodeXYN_fields]

/-- Format X: family and low byte are literal. -/
theorem encodeXNN_of_op_of_low {op : Nibble} {n : Byte} (hop : (fieldOp w).toNat = op.toNat)
    (hn : (fieldNN w).toNat = n.toNat) : encodeXNN op (fieldX w) n = w := by
  rw [← BitVec.eq_of_toNat_eq hn, encodeXNN_of_op hop]

/-- Format XY: family and low nibble are literal. -/
theorem encodeXYN_of_op_of_low {op n : Nibble} (hop : (fieldOp w).toNat = op.toNat)
    (hn : (fieldN w).toNat = n.toNat) : encodeXYN op (fieldX w) (fieldY w) n = w := by
  rw [← BitVec.eq_of_toNat_eq hn, encodeXYN_of_op hop]

theorem encode_of_decodeFamily0 (h : decodeFamily0 w = .ok i) : encode i = w := by
  unfold decodeFamily0 at h
  split_ifs at h with hcls hret
  · cases h; exact hcls.symm
  · cases h; exact hret.symm

theorem encode_of_decodeFamily5 (hop : (fieldOp w).toNat = 0x5) (h : decodeFamily5 w = .ok i) : encode i = w := by
  unfold decodeFamily5 at h
  split_ifs at h with hn
  cases h; exact encodeXYN_of_op_of_low hop (congrArg _ hn)

theorem encode_of_decodeFamily8 (hop : (fieldOp w).toNat = 0x8) (h : decodeFamily8 w = .ok i) : encode i = w := by
  unfold decodeFamily8 at h
  split at h <;> cases h <;> exact encodeXYN_of_op_of_low hop ‹_›

theorem encode_of_decodeFamily9 (hop : (fieldOp w).toNat = 0x9) (h : decodeFamily9 w = .ok i) : encode i = w := by
  unfold decodeFamily9 at h
  split_ifs at h with hn
  cases h; exact encodeXYN_of_op_of_low hop (congrArg _ hn)

theorem encode_of_decodeFamilyE (hop : (fieldOp w).toNat = 0xE) (h : decodeFamilyE w = .ok i) : encode i = w := by
  unfold decodeFamilyE at h
  split_ifs at h with hskp hsknp
  · cases h; exact encodeXNN_of_op_of_low hop (congrArg _ hskp)
  · cases h; exact encodeXNN_of_op_of_low hop (congrArg _ hsknp)

theorem encode_of_decodeFamilyF (hop : (fieldOp w).toNat = 0xF) (h : decodeFamilyF w = .ok i) : encode i = w := by
  unfold decodeFamilyF at h
  split at h <;> cases h <;> exact encodeXNN_of_op_of_low hop ‹_›

end encodeDecoded

/-- Settles O2: in each family the fields the instruction keeps and the literal digits compared are all 16 bits. -/
theorem encodeOfDecodeIsIdentity : Obligations.EncodeOfDecodeIsIdentity := by
  intro w i h
  unfold decode at h
  split at h
  case h_1 => exact encode_of_decodeFamily0 h
  case h_6 hop => exact encode_of_decodeFamily5 hop h
  case h_9 hop => exact encode_of_decodeFamily8 hop h
  case h_10 hop => exact encode_of_decodeFamily9 hop h
  case h_15 hop => exact encode_of_decodeFamilyE hop h
  case h_16 =>
    have hlt := (fieldOp w).isLt
    exact encode_of_decodeFamilyF (by grind) h
  case h_2 | h_3 | h_11 | h_12 => cases h; exact encodeNNN_of_op ‹_›
  case h_4 | h_5 | h_7 | h_8 | h_13 => cases h; exact encodeXNN_of_op ‹_›
  case h_14 hop => cases h; exact encodeXYN_of_op hop

/-! ### The bits that select an instruction (R75) -/

/-- The identifier of the row a word decodes to, `none` where it does not decode. -/
def decodedId (w : Word) : Option String := (decode w).toOption.map Instr.mnemonic

theorem decodedId_eq_some {w : Word} {id : String} :
    decodedId w = some id ↔ ∃ i, decode w = .ok i ∧ i.mnemonic = id := by
  unfold decodedId
  cases decode w <;> simp [Except.toOption]

/-- The bits that select the instruction in a family: all of them in family 0, the low nibble in families 5, 8 and 9, the
low byte in families E and F, and the family selector alone in the others (R75). -/
def selectorMask (op : Nibble) : Word :=
  match op.toNat with
  | 0x0 => 0xFFFF#16
  | 0x5 | 0x8 | 0x9 => 0xF00F#16
  | 0xE | 0xF => 0xF0FF#16
  | _ => 0xF000#16

section selected
variable (w v m : Word)

theorem fieldOp_and : fieldOp (w &&& m) = fieldOp w &&& fieldOp m := BitVec.extractLsb'_and ..
theorem fieldN_and : fieldN (w &&& m) = fieldN w &&& fieldN m := BitVec.extractLsb'_and ..
theorem fieldNN_and : fieldNN (w &&& m) = fieldNN w &&& fieldNN m := BitVec.extractLsb'_and ..

/-- Every family is selected by its top nibble at least. -/
theorem fieldOp_selectorMask : ∀ op, fieldOp (selectorMask op) = BitVec.allOnes 4 := by decide

variable {w v}

theorem fieldN_eq_of_masked (h : w &&& 0xF00F#16 = v) : fieldN w = fieldN v := by
  rw [← h, fieldN_and]; exact BitVec.and_allOnes.symm

theorem fieldNN_eq_of_masked (h : w &&& 0xF0FF#16 = v) : fieldNN w = fieldNN v := by
  rw [← h, fieldNN_and]; exact BitVec.and_allOnes.symm

/-- A word decodes to the same row as its selecting bits alone. -/
theorem decodedId_eq_of_masked (h : w &&& selectorMask (fieldOp v) = v) : decodedId w = decodedId v := by
  have hop : fieldOp w = fieldOp v := by
    conv_rhs => rw [← h, fieldOp_and, fieldOp_selectorMask, BitVec.and_allOnes]
  unfold decodedId decode
  rw [hop]
  unfold selectorMask at h
  split at h
  case h_1 => rw [← h, show w &&& 0xFFFF#16 = w from BitVec.and_allOnes]
  case h_2 hv | h_3 hv | h_4 hv =>
    simp only [hv, decodeFamily5, decodeFamily8, decodeFamily9, fieldN_eq_of_masked h]
    split <;> rfl
  case h_5 hv =>
    simp only [hv, decodeFamilyE, fieldNN_eq_of_masked h]
    split_ifs <;> rfl
  case h_6 hv =>
    simp only [hv, decodeFamilyF, fieldNN_eq_of_masked h]
    split <;> rfl
  case h_7 h0 h5 h8 h9 hE hF =>
    split
    case h_1 | h_6 | h_9 | h_10 | h_15 => contradiction
    case h_16 =>
      have hlt := (fieldOp v).isLt
      exact absurd (show (fieldOp v).toNat = 0xF by grind) hF
    all_goals rfl

end selected

/-! ### The rows of the opcode list (R76) -/

/-- The mask of a row is the one its family is selected by (R75). -/
theorem opcodeRows_mask : ∀ r ∈ opcodeRows, r.mask = selectorMask (fieldOp r.value) := by decide

/-- The word of a row whose operand fields are 0 decodes to that row. -/
theorem opcodeRows_decodedId : ∀ r ∈ opcodeRows, decodedId r.value = some r.id := by decide

/-- No two rows share an identifier. -/
theorem opcodeRows_nodup_id : (opcodeRows.map OpcodeRow.id).Nodup := by decide

/-- A word that matches a row decodes to that row (R75). -/
theorem decodedId_of_matches {w : Word} {r : OpcodeRow} (hr : r ∈ opcodeRows) (hw : w &&& r.mask = r.value) :
    decodedId w = some r.id :=
  (decodedId_eq_of_masked (opcodeRows_mask r hr ▸ hw)).trans (opcodeRows_decodedId r hr)

namespace Laws.EncodingFitsRow

/-- The whole family: every instruction's opcode matches its own row (R76). -/
theorem holds : ∀ i : Instr, Statement i
  | .cls => cls
  | .ret => ret
  | .jp nnn => jp nnn
  | .call nnn => call nnn
  | .seImm x nn => seImm x nn
  | .sneImm x nn => sneImm x nn
  | .seReg x y => seReg x y
  | .ldImm x nn => ldImm x nn
  | .addImm x nn => addImm x nn
  | .ldReg x y => ldReg x y
  | .or x y => or x y
  | .and x y => and x y
  | .xor x y => xor x y
  | .addReg x y => addReg x y
  | .sub x y => sub x y
  | .shr x y => shr x y
  | .subn x y => subn x y
  | .shl x y => shl x y
  | .sneReg x y => sneReg x y
  | .ldI nnn => ldI nnn
  | .jpV0 nnn => jpV0 nnn
  | .rnd x nn => rnd x nn
  | .drw x y n => drw x y n
  | .skp x => skp x
  | .sknp x => sknp x
  | .ldVxDt x => ldVxDt x
  | .ldVxK x => ldVxK x
  | .ldDtVx x => ldDtVx x
  | .ldStVx x => ldStVx x
  | .addI x => addI x
  | .ldF x => ldF x
  | .ldB x => ldB x
  | .stRegs x => stRegs x
  | .ldRegs x => ldRegs x

end Laws.EncodingFitsRow

/-- A word that decodes matches the row of its instruction: it is that instruction's encoding, which fits the row. -/
theorem matches_of_decode {w : Word} {i : Instr} (h : decode w = .ok i) :
    ∃ r ∈ opcodeRows, r.id = i.mnemonic ∧ w &&& r.mask = r.value := by
  obtain ⟨r, hr, hid, hfits⟩ := Laws.EncodingFitsRow.holds i
  rw [encodeOfDecodeIsIdentity w i h] at hfits
  exact ⟨r, hr, hid, eq_of_beq hfits⟩

/-- Settles O3: a decoded word is the encoding of its instruction and so matches that row; a word that matches a row has
the row's selecting bits and so decodes to it; and so a word that matches no row cannot decode. -/
theorem decodeAgreesWithOpcodeList : Obligations.DecodeAgreesWithOpcodeList := by
  intro w
  refine ⟨fun i => matches_of_decode, fun r hr hw => decodedId_eq_some.1 (decodedId_of_matches hr hw), fun hno => ?_⟩
  cases hd : decode w with
  | ok i =>
    obtain ⟨r, hr, -, hw⟩ := matches_of_decode hd
    exact absurd hw (hno r hr)
  | error e => rw [decode_error hd]

/-- Settles O4: the decoder answers one instruction, whose identifier both rows bear, and no two rows share one. -/
theorem opcodeListRowsAreDisjoint : Obligations.OpcodeListRowsAreDisjoint := by
  intro w r hr q hq hwr hwq
  have hid : r.id = q.id := Option.some.inj ((decodedId_of_matches hr hwr).symm.trans (decodedId_of_matches hq hwq))
  exact List.inj_on_of_nodup_map opcodeRows_nodup_id hr hq hid

/-- Settles O5: the decoder evaluated on the eight words. -/
theorem writtenOutWordsDecode : Obligations.WrittenOutWordsDecode := by
  unfold Obligations.WrittenOutWordsDecode
  decide

end Sys2Proof

/-! ## Flag and result in VX (R14, R142) -/

namespace Sys2Proof.Machine

theorem flagByte_toNat (b : Bool) : (flagByte b).toNat = b.toNat := by cases b <;> rfl

section flagged
variable (s : State) (x : Nibble) (flag : Bool) (result : Byte)

/-- VX holds the result, also where X = F (D4). -/
theorem flagThenResult_reg_same : (s.flagThenResult x flag result).reg x = result := by
  rw [State.flagThenResult_reg, if_pos rfl]

/-- VF holds the flag, unless the result replaced it (D4). -/
theorem flagThenResult_reg_F (hx : x ≠ 0xF) : (s.flagThenResult x flag result).reg 0xF = flagByte flag :=
  (State.flagThenResult_reg ..).trans ((if_neg hx.symm).trans (if_pos rfl))

/-- What a flag-writing instruction leaves: every register but VX and VF, and every element but the registers and `PC`. -/
theorem flagThenResult_advance_frame :
    (∀ r, r ≠ x → r ≠ 0xF → (s.flagThenResult x flag result).advance.reg r = s.reg r) ∧
    (s.flagThenResult x flag result).advance.pc = s.pc + 2 ∧
    SameExcept [.v, .pc] s (s.flagThenResult x flag result).advance :=
  ⟨fun _ hx hf => (State.flagThenResult_reg ..).trans ((if_neg hx).trans (if_neg hf)), rfl,
    SameExcept.refl.flagThenResult.advance⟩

end flagged

/-- The bit shifted out at the low end is the remainder by 2 (R139). -/
theorem shiftedOutLow_toNat (a : Byte) : (shiftedOutLow a).toNat = a.toNat % 2 := by
  rw [shiftedOutLow, BitVec.getLsbD, Nat.toNat_testBit, pow_zero, Nat.div_one]

/-- The bit shifted out at the high end is the quotient by 128 (R141). -/
theorem shiftedOutHigh_toNat (a : Byte) : (shiftedOutHigh a).toNat = a.toNat / 128 := by
  have hlt := a.isLt
  rw [shiftedOutHigh, BitVec.getLsbD, Nat.toNat_testBit]
  omega

/-- Settles O38: the flag is the bit shifted out of the old VX, and the rest is the frame all flag writers have. -/
theorem shiftsMoveVxByOne : Obligations.ShiftsMoveVxByOne := by
  intro s x y
  constructor
  · refine ⟨_, exec_shr s x y, ?_, fun hx => ?_, flagThenResult_advance_frame ..⟩
    · rw [State.advance_reg, flagThenResult_reg_same, BitVec.toNat_ushiftRight, Nat.shiftRight_one]
    · rw [State.advance_reg, flagThenResult_reg_F s x _ _ hx, flagByte_toNat, shiftedOutLow_toNat]
  · refine ⟨_, exec_shl s x y, ?_, fun hx => ?_, flagThenResult_advance_frame ..⟩
    · rw [State.advance_reg, flagThenResult_reg_same, BitVec.toNat_shiftLeft, Nat.shiftLeft_eq]
    · rw [State.advance_reg, flagThenResult_reg_F s x _ _ hx, flagByte_toNat, shiftedOutHigh_toNat]

end Sys2Proof.Machine

/-! ## What the host's part of a step leaves unchanged (R100 to R107) -/

namespace Sys2Proof.Machine

namespace State

variable (s : State) (bytes : List Byte) (k : Nibble)

@[simp] theorem beginOp_script : s.beginOp.script = s.script.tail := rfl
@[simp] theorem beginOp_sound : s.beginOp.sound = false := rfl
@[simp] theorem beginOp_loadOpen : s.beginOp.loadOpen = s.loadOpen := rfl
@[simp] theorem beginOp_loadFault : s.beginOp.loadFault = none := rfl
@[simp] theorem beginOp_dt : s.beginOp.dt = s.dt := rfl
@[simp] theorem beginOp_st : s.beginOp.st = s.st := rfl

@[simp] theorem beginTick_mem : s.beginTick.mem = s.mem := rfl
@[simp] theorem beginTick_i : s.beginTick.i = s.i := rfl
@[simp] theorem beginTick_pc : s.beginTick.pc = s.pc := rfl
@[simp] theorem beginTick_sp : s.beginTick.sp = s.sp := rfl
@[simp] theorem beginTick_reg (r : Nibble) : s.beginTick.reg r = s.reg r := rfl
@[simp] theorem beginTick_script : s.beginTick.script = s.script.tail := rfl
@[simp] theorem beginTick_sound : s.beginTick.sound = false := rfl
@[simp] theorem beginTick_loadOpen : s.beginTick.loadOpen = false := rfl
@[simp] theorem beginTick_loadFault : s.beginTick.loadFault = none := rfl
@[simp] theorem beginTick_dt : s.beginTick.dt = s.dt := rfl
@[simp] theorem beginTick_st : s.beginTick.st = s.st := rfl

@[simp] theorem newCore_script : s.newCore.script = s.script := rfl
@[simp] theorem newCore_sound : s.newCore.sound = false := rfl
@[simp] theorem newCore_loadOpen : s.newCore.loadOpen = true := rfl
@[simp] theorem newCore_loadFault : s.newCore.loadFault = none := rfl
@[simp] theorem newCore_dt : s.newCore.dt = 0 := rfl
@[simp] theorem newCore_st : s.newCore.st = 0 := rfl

@[simp] theorem placeImage_script : (s.placeImage bytes).script = s.script := rfl
@[simp] theorem placeImage_sound : (s.placeImage bytes).sound = s.sound := rfl
@[simp] theorem placeImage_loadFault : (s.placeImage bytes).loadFault = s.loadFault := rfl
@[simp] theorem placeImage_dt : (s.placeImage bytes).dt = s.dt := rfl
@[simp] theorem placeImage_st : (s.placeImage bytes).st = s.st := rfl

@[simp] theorem loadFailed_script : (s.loadFailed bytes).script = s.script := rfl
@[simp] theorem loadFailed_sound : (s.loadFailed bytes).sound = s.sound := rfl
@[simp] theorem loadFailed_loadOpen : (s.loadFailed bytes).loadOpen = false := rfl
@[simp] theorem loadFailed_loadFault :
    (s.loadFailed bytes).loadFault = some (.programTooLarge bytes.length 3584) := rfl
@[simp] theorem loadFailed_dt : (s.loadFailed bytes).dt = s.dt := rfl
@[simp] theorem loadFailed_st : (s.loadFailed bytes).st = s.st := rfl

@[simp] theorem keyRelease_script : (s.keyRelease k).script = s.script := rfl
@[simp] theorem keyRelease_sound : (s.keyRelease k).sound = s.sound := rfl
@[simp] theorem keyRelease_loadOpen : (s.keyRelease k).loadOpen = s.loadOpen := rfl
@[simp] theorem keyRelease_loadFault : (s.keyRelease k).loadFault = s.loadFault := rfl
@[simp] theorem keyRelease_dt : (s.keyRelease k).dt = s.dt := rfl
@[simp] theorem keyRelease_st : (s.keyRelease k).st = s.st := rfl

end State

namespace Elem

variable {e : Elem} (s : State)

theorem same_setKey (k : Nibble) (b : Bool) (h : e ≠ .key) : e.Same s (s.setKey k b) := by
  cases e <;> simp [Same] at h ⊢

theorem same_setSound (b : Bool) (h : e ≠ .host) : e.Same s (s.setSound b) := by cases e <;> simp [Same] at h ⊢

theorem same_setScript (l : List HostOp) (h : e ≠ .host) : e.Same s (s.setScript l) := by
  cases e <;> simp [Same] at h ⊢

theorem same_setLoadOpen (b : Bool) (h : e ≠ .host) : e.Same s (s.setLoadOpen b) := by
  cases e <;> simp [Same] at h ⊢

theorem same_setLoadFault (f : Option Fault) (h : e ≠ .host) : e.Same s (s.setLoadFault f) := by
  cases e <;> simp [Same] at h ⊢

end Elem

namespace SameExcept

variable {l : List Elem} {s t : State}

theorem setKey {k : Nibble} {b : Bool} (h : SameExcept l s t) (hw : .key ∈ l := by simp) :
    SameExcept l s (t.setKey k b) := h.update hw fun _ => Elem.same_setKey t k b

theorem setSound {b : Bool} (h : SameExcept l s t) (hw : .host ∈ l := by simp) :
    SameExcept l s (t.setSound b) := h.update hw fun _ => Elem.same_setSound t b

theorem setScript {ops : List HostOp} (h : SameExcept l s t) (hw : .host ∈ l := by simp) :
    SameExcept l s (t.setScript ops) := h.update hw fun _ => Elem.same_setScript t ops

theorem setLoadOpen {b : Bool} (h : SameExcept l s t) (hw : .host ∈ l := by simp) :
    SameExcept l s (t.setLoadOpen b) := h.update hw fun _ => Elem.same_setLoadOpen t b

theorem setLoadFault {f : Option Fault} (h : SameExcept l s t) (hw : .host ∈ l := by simp) :
    SameExcept l s (t.setLoadFault f) := h.update hw fun _ => Elem.same_setLoadFault t f

theorem beginOp (h : SameExcept l s t) (hw : .host ∈ l := by simp) : SameExcept l s t.beginOp :=
  ((h.setScript hw).setSound hw).setLoadFault hw

theorem placeImage {bytes : List Byte} (h : SameExcept l s t) (hw : .mem ∈ l := by simp) :
    SameExcept l s (t.placeImage bytes) := h.setMem hw

theorem loadFailed {bytes : List Byte} (h : SameExcept l s t) (hw : .host ∈ l := by simp) :
    SameExcept l s (t.loadFailed bytes) := (h.setLoadOpen hw).setLoadFault hw

theorem timerStep (h : SameExcept l s t) (hd : .dt ∈ l := by simp) (hs : .st ∈ l := by simp)
    (hw : .host ∈ l := by simp) : SameExcept l s t.timerStep := ((h.setDt hd).setSt hs).setSound hw

end SameExcept

/-- A key press writes keys, and ending a wait the pending register, the mode and `PC` (R174, R175). -/
theorem keyPress_sameExcept (s : State) (k : Nibble) : SameExcept [.key, .v, .mode, .pc] s (s.keyPress k) := by
  cases hm : s.mode with
  | running => rw [State.keyPress_running k hm]; exact SameExcept.refl.setKey
  | waitingForKey => rw [State.keyPress_waiting k hm]; exact SameExcept.refl.setKey.setReg.setMode.advance

/-- No instruction touches the model's own bookkeeping of the host (R13). -/
theorem exec_keeps_host {i : Instr} {s t : State} (h : exec i s = .next t) : Elem.host.Same s t :=
  instructionsChangeOnlyWhatTheyName i s t h .host (by cases i <;> simp [elemsWritten])

/-- Of the bookkeeping a tick changes the sound output only (R95, R96). -/
theorem tick_keeps_bookkeeping {s t : State} (h : s.tick = .next t) :
    t.script = s.script ∧ t.loadOpen = s.loadOpen ∧ t.loadFault = s.loadFault := by
  obtain ⟨-, rfl⟩ | ⟨-, i, u, -, -, he, rfl⟩ := tick_next h
  · exact ⟨rfl, rfl, rfl⟩
  · obtain ⟨hscript, -, hopen, hfault⟩ := exec_keeps_host he
    exact ⟨hscript, hopen, hfault⟩

end Sys2Proof.Machine

/-! ## What a step answers (R190, R199, R201) -/

namespace Sys2Proof.Machine

/-- The result is what a fault condition asks for: its fault where one holds, a next state where none does. -/
inductive Answers : Option Fault → Result → Prop where
  | faulted (f : Fault) : Answers (some f) (.fault f)
  | completed (t : State) : Answers none (.next t)

namespace Answers

variable {c : Option Fault} {r : Result}

theorem fault_iff (h : Answers c r) {f : Fault} : r = .fault f ↔ c = some f := by cases h <;> simp

theorem exists_next (h : Answers none r) : ∃ t, r = .next t := by cases h; exact ⟨_, rfl⟩

theorem ne_refused (h : Answers c r) {w : Refusal} : r ≠ .refused w := by cases h <;> simp

/-- The timer step after an instruction adds no fault and takes none away (R95, R97). -/
theorem finishTick (h : Answers c r) : Answers c (finishTick r) := by
  cases h with
  | faulted f => exact faulted f
  | completed t => exact completed t.timerStep

/-- The range check of R55 faults on its own condition only. -/
theorem inRange (s t : State) (last : Nat) :
    Answers (if s.ea last > 0xFFF then some (.outOfBoundsData (s.ea last)) else none) (s.inRange last (.next t)) := by
  by_cases h : s.ea last > 0xFFF
  · rw [if_pos h, State.inRange_of_gt h]; exact faulted _
  · rw [if_neg h, State.inRange_of_le (Nat.not_lt.1 h)]; exact completed t

/-- The key check of R171 faults on its own condition only. -/
theorem withKey (s : State) (x : Nibble) (g : Nibble → State) :
    Answers (if (s.reg x).toNat > 15 then some (.keyIndexFault (s.reg x)) else none)
      (s.withKey x fun k => .next (g k)) := by
  by_cases h : (s.reg x).toNat > 15
  · rw [if_pos h, State.withKey_of_gt h]; exact faulted _
  · rw [if_neg h, State.withKey_of_le (Nat.not_lt.1 h)]; exact completed _

end Answers

/-- Each instruction answers as its row of R190 says: the eight listed ones by their check, all others complete. -/
theorem exec_answers (i : Instr) (s : State) : Answers (faultCondition i s) (exec i s) := by
  cases i with
  | call nnn =>
    by_cases hd : s.depth.val < 16
    · rw [exec_call_of_room s nnn hd, faultCondition, if_neg (by unfold State.sp; omega)]
      exact .completed _
    · rw [exec_call_of_full s nnn hd, faultCondition, if_pos (by unfold State.sp; omega)]
      exact .faulted _
  | ret =>
    by_cases hd : 0 < s.depth.val
    · rw [exec_ret_of_live s hd (by omega), faultCondition, if_neg (by unfold State.sp; omega)]
      exact .completed _
    · rw [exec_ret_of_empty s hd, faultCondition, if_pos (by unfold State.sp; omega)]
      exact .faulted _
  | drw x y n =>
    by_cases hn : n = 0
    · rw [exec_drw, if_pos (.inl hn), faultCondition, if_neg (by simp [hn])]
      exact .completed _
    · have hpos : 0 < n.toNat := Nat.pos_of_ne_zero fun c => hn (BitVec.toNat_inj.1 c)
      have hexec : exec (.drw x y n) s = s.inRange (n.toNat - 1) (.next (s.drawn x y n)) := if_neg hn
      rw [hexec, faultCondition]
      simpa only [hpos, true_and, ea_sub_one s hn] using Answers.inRange s (s.drawn x y n) (n.toNat - 1)
  | skp x => exact Answers.withKey s x fun k => s.skipIf (s.keyDown k)
  | sknp x => exact Answers.withKey s x fun k => s.skipIf (!s.keyDown k)
  | ldB | stRegs | ldRegs => exact Answers.inRange s _ _
  | _ => exact .completed _

/-- A tick answers as the order of checks of R201 says. -/
theorem tick_answers (s : State) : Answers (tickFault s) s.tick := by
  cases hm : s.mode with
  | waitingForKey => simpa only [tickFault, State.tick, hm] using Answers.completed s
  | running =>
    rw [tick_of_running hm]
    by_cases hpc : s.pc.toNat > 0xFFE
    · simpa only [tickFault, State.runTick, hm, if_pos hpc] using! Answers.faulted (.outOfBoundsFetch s.pc)
    · cases hd : decode s.opcode with
      | error e =>
        have hd' : decode (s.mem.read s.pc.toNat ++ s.mem.read (s.pc.toNat + 1)) = .error e := hd
        simpa only [tickFault, State.runTick, hm, if_neg hpc, hd, hd'] using!
          Answers.faulted (.opcodeFault s.opcode s.pc)
      | ok i =>
        have hd' : decode (s.mem.read s.pc.toNat ++ s.mem.read (s.pc.toNat + 1)) = .ok i := hd
        simpa only [tickFault, State.runTick, hm, if_neg hpc, hd, hd'] using (exec_answers i s).finishTick

/-- The conditions of R190 read nothing of the model's own bookkeeping, so `beginTick` keeps them. -/
theorem faultCondition_beginTick (i : Instr) (s : State) : faultCondition i s.beginTick = faultCondition i s := by
  cases i with
  | call | ret => rfl
  | _ => simp [faultCondition]

theorem tickFault_beginTick (s : State) : tickFault s.beginTick = tickFault s := by
  simp only [tickFault, State.beginTick_mode, State.beginTick_pc, State.beginTick_mem, faultCondition_beginTick]

/-- The next operation is a `load_program` outside its contract (R101, D20). -/
def State.LoadsLate (s : State) : Prop := ∃ bytes, s.nextOp = .loadProgram bytes ∧ s.loadOpen = false

/-- The fault of a step: that of its tick, none for any other operation of the host (R109). -/
def stepFault (s : State) : Option Fault := if s.nextOp = .tick then tickFault s else none

theorem stepFault_eq_some_iff {s : State} {f : Fault} :
    stepFault s = some f ↔ s.nextOp = .tick ∧ tickFault s = some f := by
  simp [stepFault]

theorem step_of_loadsLate {s : State} (h : s.LoadsLate) : step s = .refused .loadOutsideContract := by
  obtain ⟨bytes, ho, hclosed⟩ := h
  rw [step_eq, ho]
  exact if_pos hclosed

/-- Within the contract of `load_program` every step answers its tick's fault or a next state. -/
theorem step_answers {s : State} (h : ¬ s.LoadsLate) : Answers (stepFault s) (step s) := by
  rw [step_eq]
  cases ho : s.nextOp with
  | tick => rw [stepFault, if_pos ho, ← tickFault_beginTick]; exact tick_answers s.beginTick
  | loadProgram bytes =>
    have hopen : s.beginOp.loadOpen = true := by
      rw [State.beginOp_loadOpen, ← Bool.not_eq_false]
      exact fun hclosed => h ⟨bytes, ho, hclosed⟩
    rw [stepFault, if_neg (by simp [ho]), State.perform]
    by_cases hl : bytes.length ≤ 3584
    · rw [loadProgram_of_fits hopen hl]; exact .completed _
    · rw [loadProgram_of_too_large hopen (Nat.not_le.1 hl)]; exact .completed _
  | _ => rw [stepFault, if_neg (by simp [ho])]; exact .completed _

/-- Settles O11: with no condition to meet, what `exec_answers` leaves is a next state. -/
theorem instructionCompletesUnlessListed : Obligations.InstructionCompletesUnlessListed := by
  intro i s h
  exact (h ▸ exec_answers i s).exists_next

/-- Settles O12: a late load is refused and is no tick, and any other step answers its `stepFault`. -/
theorem tickFaultsInOrderOfChecks : Obligations.TickFaultsInOrderOfChecks := by
  intro s f
  by_cases h : s.LoadsLate
  · have ⟨bytes, ho, _⟩ := h
    simp [step_of_loadsLate h, ho]
  · exact (step_answers h).fault_iff.trans stepFault_eq_some_iff

/-- Settles O7: decoding is the check of R201 that fails first. -/
theorem undecodedOpcodeFaults : Obligations.UndecodedOpcodeFaults := by
  rintro s _ e ho hm hpc rfl hd
  refine (tickFaultsInOrderOfChecks s _).2 ⟨ho, ?_⟩
  simp only [tickFault, hm, if_neg (Nat.not_lt.2 hpc), hd]

/-- Settles O13: refusals by whether the load is late, the window by the operation the step performed. -/
theorem onlyLateLoadsAreRefused : Obligations.OnlyLateLoadsAreRefused := by
  constructor
  · intro s r
    constructor
    · intro hr
      by_cases h : s.LoadsLate
      · have ⟨bytes, ho, hclosed⟩ := h
        rw [step_of_loadsLate h] at hr
        cases hr; exact ⟨bytes, ho, hclosed, rfl⟩
      · exact absurd hr (step_answers h).ne_refused
    · rintro ⟨bytes, ho, hclosed, rfl⟩
      exact step_of_loadsLate ⟨bytes, ho, hclosed⟩
  · intro s t h
    obtain ⟨ho, rfl⟩ | ⟨bytes, ho, -, ⟨-, rfl⟩ | ⟨-, rfl⟩⟩ | ⟨ho, ht⟩ | ⟨k, ho, rfl⟩ | ⟨k, ho, rfl⟩ | ⟨ho | ho, rfl⟩ :=
      step_next h
    case inr.inr.inl => simp [(tick_keeps_bookkeeping ht).2.1, ho]
    case inr.inr.inr.inl =>
      obtain ⟨-, -, hopen, -⟩ := keyPress_sameExcept s.beginTick k .host (by simp)
      simp [hopen, ho]
    all_goals simp [ho]

end Sys2Proof.Machine

/-! ## The host's operations and their bookkeeping (R101 to R107) -/

namespace Sys2Proof.Machine

/-- Settles O60: an operation is taken off the script before it is performed, and no operation puts one back. -/
theorem everyStepTakesOneOperation : Obligations.EveryStepTakesOneOperation := by
  intro s t h
  obtain ⟨-, rfl⟩ | ⟨bytes, -, -, ⟨-, rfl⟩ | ⟨-, rfl⟩⟩ | ⟨-, ht⟩ | ⟨k, -, rfl⟩ | ⟨k, -, rfl⟩ | ⟨-, rfl⟩ := step_next h
  case inr.inr.inl => exact (tick_keeps_bookkeeping ht).1
  case inr.inr.inr.inl => exact (keyPress_sameExcept s.beginTick k .host (by simp)).1
  all_goals simp

section performed
variable {s : State} {bytes : List Byte}

theorem step_of_fitting_load (ho : s.nextOp = .loadProgram bytes) (hopen : s.loadOpen = true)
    (hl : bytes.length ≤ 3584) : step s = .next ((s.beginOp.placeImage bytes).setLoadOpen false) := by
  rw [step_eq, ho]
  exact loadProgram_of_fits hopen hl

theorem step_of_oversized_load (ho : s.nextOp = .loadProgram bytes) (hopen : s.loadOpen = true)
    (hl : 3584 < bytes.length) : step s = .next (s.beginOp.loadFailed bytes) := by
  rw [step_eq, ho]
  exact loadProgram_of_too_large hopen hl

theorem step_of_reset (ho : s.nextOp = .reset) : step s = .next s.beginOp.newCore := by
  rw [step_eq, ho]; rfl

theorem step_of_display_or_onSound (ho : s.nextOp = .display ∨ s.nextOp = .onSound) : step s = .next s.beginOp := by
  rcases ho with ho | ho <;> rw [step_eq, ho] <;> rfl

end performed

/-- Settles O18: the image lies inside memory, so its bytes read back in order and the canonical form is kept. -/
theorem loadProgramPlacesImage : Obligations.LoadProgramPlacesImage := by
  intro s bytes ho hopen hl hwf
  have hin : 0x200 + bytes.length ≤ 4096 := by omega
  exact ⟨_, step_of_fitting_load ho hopen hl, fun k hk => Memory.read_writeBytes hwf hin hk,
    fun a ha => Memory.read_writeBytes_outside ha, Memory.wf_writeBytes hwf hin,
    SameExcept.refl.beginOp.placeImage.setLoadOpen, rfl, rfl⟩

/-- Settles O19: the two branches of the load meet at 3584 bytes, and no other step reports a fault of a load. -/
theorem oversizedImageFaults : Obligations.OversizedImageFaults := by
  constructor
  · intro s bytes ho hopen
    refine ⟨fun hl => ⟨_, step_of_oversized_load ho hopen hl, rfl, SameExcept.refl.beginOp.loadFailed⟩,
      fun hl => ⟨_, step_of_fitting_load ho hopen hl, rfl⟩, fun hlen hwf => ?_⟩
    obtain ⟨t, hstep, hread, -⟩ := loadProgramPlacesImage s bytes ho hopen (Nat.le_of_eq hlen) hwf
    refine ⟨t, hstep, fun a hlo hhi => ?_⟩
    have hk : a - 0x200 < bytes.length := by omega
    rw [List.getD_eq_getElem _ _ hk, ← hread _ hk, Nat.add_sub_cancel' hlo]
  · intro s t h hf
    obtain ⟨-, rfl⟩ | ⟨bytes, ho, -, ⟨-, rfl⟩ | ⟨hl, rfl⟩⟩ | ⟨-, ht⟩ | ⟨k, -, rfl⟩ | ⟨k, -, rfl⟩ | ⟨-, rfl⟩ := step_next h
    case inr.inl.inr => exact ⟨bytes, ho, hl⟩
    case inr.inr.inl => exact absurd (tick_keeps_bookkeeping ht).2.2 hf
    case inr.inr.inr.inl =>
      obtain ⟨-, -, -, hfault⟩ := keyPress_sameExcept s.beginTick k .host (by simp)
      exact absurd hfault hf
    all_goals simp at hf

/-- Settles O21: a new core keeps the draws and the script, and nothing else of the state before. -/
theorem resetOperationGivesFreshCore : Obligations.ResetOperationGivesFreshCore := by
  intro s ho
  exact ⟨_, step_of_reset ho, SameExcept.refl.setScript.setDraws, rfl, rfl, rfl, rfl, rfl⟩

/-- Settles O59: the step ends in the state its operation starts from. -/
theorem displayAndOnSoundChangeNothing : Obligations.DisplayAndOnSoundChangeNothing := by
  intro s ho
  exact ⟨_, step_of_display_or_onSound ho, SameExcept.refl.beginOp, rfl, rfl, rfl, rfl⟩

end Sys2Proof.Machine

/-! ## The timer step in a tick (R91, R95, R184, R185) -/

namespace Sys2Proof.Machine

theorem tick_of_waiting {s : State} (hm : s.mode = .waitingForKey) : s.tick = .next s := by
  simp only [State.tick, hm]

/-- Settles O8: the tick ends in the state it starts from. -/
theorem waitingTickChangesNothing : Obligations.WaitingTickChangesNothing := by
  intro s ho hm
  exact ⟨_, (step_of_tick ho).trans (tick_of_waiting (s := s.beginTick) hm), beginTick_sameExcept_host s, rfl, rfl⟩

/-- The sound is signalled when `ST` is exactly 1 before its decrement (R185). -/
theorem timerStep_sound_iff (s : State) : s.timerStep.sound = true ↔ s.st.toNat = 1 := by
  rw [State.timerStep_eq, beq_iff_eq, ← BitVec.toNat_inj]
  rfl

/-- Settles O9: a completed instruction is followed by the timer step, and the other operations but the reset keep both
timers. -/
theorem timerStepAfterEveryInstruction : Obligations.TimerStepAfterEveryInstruction := by
  constructor
  · intro s u i ho hm hpc hd he
    obtain ⟨-, hstep⟩ := stepExecutesDecodedInstruction s i ho hm hpc hd
    rw [he] at hstep
    exact ⟨u.timerStep, hstep, countDown_toNat u.dt, countDown_toNat u.st, timerStep_sound_iff u,
      SameExcept.refl.timerStep⟩
  · intro s t h hidle
    obtain ⟨ho, rfl⟩ | ⟨bytes, ho, -, ⟨-, rfl⟩ | ⟨-, rfl⟩⟩ | ⟨ho, ht⟩ | ⟨k, ho, rfl⟩ | ⟨k, ho, rfl⟩ | ⟨ho | ho, rfl⟩ :=
      step_next h
    case inr.inr.inl =>
      obtain ⟨-, rfl⟩ | ⟨hm, -⟩ := tick_next ht
      · simp [ho]
      · exact absurd ⟨ho, hm⟩ hidle
    case inr.inr.inr.inl =>
      have hframe := keyPress_sameExcept s.beginTick k
      have hdt : (s.beginTick.keyPress k).dt = s.dt := hframe .dt (by simp)
      have hst : (s.beginTick.keyPress k).st = s.st := hframe .st (by simp)
      obtain ⟨-, hsound, -⟩ := hframe .host (by simp)
      simp [ho, hdt, hst, hsound]
    all_goals simp [ho]

/-- Settles O53: the instruction leaves VX in the timer, and O9's timer step follows in the same tick. -/
theorem timerWriteCountsInItsTick : Obligations.TimerWriteCountsInItsTick := by
  intro s x ho hm hpc
  constructor
  · intro hd
    obtain ⟨t, hstep, hdt, -⟩ := timerStepAfterEveryInstruction.1 s _ _ ho hm hpc hd (exec_ldDtVx s.beginTick x)
    exact ⟨t, hstep, hdt⟩
  · intro hd
    obtain ⟨t, hstep, -, hst, hsound, -⟩ :=
      timerStepAfterEveryInstruction.1 s _ _ ho hm hpc hd (exec_ldStVx s.beginTick x)
    exact ⟨t, hstep, hst, hsound⟩

end Sys2Proof.Machine

/-! ## Results under an update no instruction reads (R96, R170) -/

namespace Sys2Proof.Machine

/-- The result with its next state, if it has one, updated. -/
def mapNext (g : State → State) : Result → Result
  | .next t => .next (g t)
  | .fault f => .fault f
  | .refused r => .refused r

/-- An update that leaves `I` alone passes through the range check (R55). -/
theorem inRange_mapNext {g : State → State} {s : State} (hi : (g s).i = s.i) (last : Nat) (body : Result) :
    (g s).inRange last (mapNext g body) = mapNext g (s.inRange last body) := by
  have hea : (g s).ea last = s.ea last := congrArg (·.toNat + last) hi
  rw [State.inRange, State.inRange, hea, apply_ite (mapNext g)]
  rfl

/-- An update that leaves VX alone passes through the key check (R171). -/
theorem withKey_mapNext {g : State → State} {s : State} {x : Nibble} (hx : (g s).reg x = s.reg x)
    (body : Nibble → Result) :
    (g s).withKey x (fun k => mapNext g (body k)) = mapNext g (s.withKey x body) := by
  rw [State.withKey, State.withKey, hx, apply_ite (mapNext g)]
  rfl

theorem loadRegs_setDraws (s : State) (base n k : Nat) :
    (s.setDraws n).loadRegs base k = (s.loadRegs base k).setDraws n := by
  induction k with
  | zero => rfl
  | succ k ih => rw [State.loadRegs, ih]; rfl

/-- Only CXNN reads the number of bytes drawn (entry 2). -/
theorem exec_setDraws {i : Instr} (hi : ∀ x nn, i ≠ .rnd x nn) (s : State) (n : Nat) :
    exec i (s.setDraws n) = mapNext (·.setDraws n) (exec i s) := by
  cases i with
  | rnd x nn => exact absurd rfl (hi x nn)
  | call nnn =>
    by_cases hd : s.depth.val < 16
    · rw [exec_call_of_room s nnn hd, exec_call_of_room (s.setDraws n) nnn hd]; rfl
    · rw [exec_call_of_full s nnn hd, exec_call_of_full (s.setDraws n) nnn hd]; rfl
  | ret =>
    by_cases hd : 0 < s.depth.val
    · have hb : s.depth.val - 1 < 16 := by omega
      rw [exec_ret_of_live s hd hb, exec_ret_of_live (s.setDraws n) hd hb]; rfl
    · rw [exec_ret_of_empty s hd, exec_ret_of_empty (s.setDraws n) hd]; rfl
  | drw => rw [exec_drw, exec_drw, apply_ite (mapNext _)]; rfl
  | skp x => exact withKey_mapNext (g := (·.setDraws n)) (s := s) rfl fun k => .next (s.skipIf (s.keyDown k))
  | sknp x => exact withKey_mapNext (g := (·.setDraws n)) (s := s) rfl fun k => .next (s.skipIf (!s.keyDown k))
  | ldB x => exact inRange_mapNext (g := (·.setDraws n)) (s := s) rfl 2 (.next (s.stored (decimalDigits (s.reg x))))
  | stRegs x => exact inRange_mapNext (g := (·.setDraws n)) (s := s) rfl x.toNat (.next (s.stored (s.regsUpTo x)))
  | ldRegs x =>
    rw [exec_ldRegs, exec_ldRegs, loadRegs_setDraws]
    exact inRange_mapNext (g := (·.setDraws n)) (s := s) rfl _ (.next (s.loadRegs (s.ea 0) (x.toNat + 1)).advance)
  | _ => rfl

/-- Settles O57: the statement's match is `mapNext`, whatever the instruction answers. -/
theorem onlyRandomDependsOnDraws : Obligations.OnlyRandomDependsOnDraws := by
  intro i s n hi
  rw [exec_setDraws hi]
  cases exec i s <;> rfl

end Sys2Proof.Machine

/-! ## Control transfer (R111 to R115) -/

namespace Sys2Proof.Machine

/-- A call that completed left its own address on top, one slot deeper, over the slots it found (R112). -/
theorem exec_call_pushes {s t : State} {nnn : Addr12} (h : exec (.call nnn) s = .next t) :
    topOfStack t = s.pc ∧ t.depth.val = s.depth.val + 1 ∧
      ∀ (j : Nat) (hj : j < 16), j ≠ s.depth.val → t.stack[j] = s.stack[j] := by
  obtain ⟨hd, rfl⟩ := exec_call_next h
  refine ⟨(topOfStack_eq _ (by exact hd)).trans (Vector.getElem_set_self hd), rfl, fun j hj hne => ?_⟩
  exact Vector.getElem_set_ne hd hj hne.symm

/-- Settles O30: what is on top when the subroutine returns is the address the call pushed. -/
theorem returnUndoesCall : Obligations.ReturnUndoesCall := by
  intro s t w nnn hcall hstack hdepth
  obtain ⟨htop, hdeeper, hbelow⟩ := exec_call_pushes hcall
  have hlive : w.depth.val = s.depth.val + 1 := hdepth ▸ hdeeper
  have htopw : topOfStack w = s.pc := by rw [← htop, topOfStack, topOfStack, hstack, hdepth]
  obtain ⟨u, hret, hpc, hsp, hkept, -⟩ := (returnResumesAfterPoppedAddress w).1 (by unfold State.sp; omega)
  refine ⟨u, hret, htopw ▸ hpc, Fin.ext ?_, fun j hj hjlive => ?_⟩
  · unfold State.sp at hsp
    omega
  · have hslots : u.stack = t.stack := hkept.trans hstack
    simpa only [hslots] using hbelow j hj (Nat.ne_of_lt hjlive)

/-- Settles O26: the target fits in `PC`. -/
theorem jumpSetsProgramCounter : Obligations.JumpSetsProgramCounter := fun s nnn =>
  ⟨_, exec_jp s nnn, zext12_toNat nnn, SameExcept.refl.setPc⟩

/-- Settles O27: a free slot takes the branch that pushes, a full stack faults. -/
theorem callPushesItsOwnAddress : Obligations.CallPushesItsOwnAddress := by
  intro s nnn
  constructor
  · intro hsp
    have hexec := exec_call_of_room s nnn (by unfold State.sp at hsp; omega)
    obtain ⟨htop, hdeeper, hbelow⟩ := exec_call_pushes hexec
    refine ⟨_, hexec, ?_, htop, hbelow, zext12_toNat nnn, SameExcept.refl.setStack.setPc⟩
    rw [State.sp, State.sp, hdeeper]
    omega
  · intro hsp
    exact exec_call_of_full s nnn (by unfold State.sp at hsp; omega)

/-- Settles O28: NNN + V0 is at most 0xFFF + 0xFF, so the 16-bit sum does not wrap (R113, D12). -/
theorem jumpWithOffsetAddsV0 : Obligations.JumpWithOffsetAddsV0 := by
  intro s nnn
  have hfits : (zext12 nnn).toNat + (zext8 (s.reg 0x0)).toNat < 2 ^ 16 := by
    rw [zext12_toNat, zext8_toNat]
    omega
  have hsum := BitVec.toNat_add_of_lt hfits
  rw [zext12_toNat, zext8_toNat] at hsum
  exact ⟨_, exec_jpV0 s nnn, hsum, SameExcept.refl.setPc⟩

end Sys2Proof.Machine

/-! ## Conditional skips (R120 to R124) -/

namespace Sys2Proof.Machine

section skipDistance
variable (s : State) {c : Bool} {p : Prop} [Decidable p]

/-- The tested bit picks the distance `PC` moves by (R120). -/
theorem skipIf_pc_eq_add (hc : c = true ↔ p) : (s.skipIf c).pc = s.pc + (if p then 4 else 2) := by
  simp only [State.skipIf_pc, hc, apply_ite (s.pc + ·)]

theorem skipIf_not_pc_eq_add (hc : c = true ↔ p) : (s.skipIf !c).pc = s.pc + (if p then 2 else 4) := by
  simp only [skipIf_not_pc, hc, apply_ite (s.pc + ·)]

end skipDistance

/-- Settles O31: 3XNN skips on the comparison with NN, 4XNN on its negation (R121, R122). -/
theorem immediateSkips : Obligations.ImmediateSkips := fun s x nn =>
  ⟨⟨_, exec_seImm s x nn, skipIf_pc_eq_add s beq_iff_eq, SameExcept.refl.skipIf⟩,
    ⟨_, exec_sneImm s x nn, skipIf_not_pc_eq_add s beq_iff_eq, SameExcept.refl.skipIf⟩⟩

/-- Settles O32: 5XY0 skips on the comparison with VY, 9XY0 on its negation (R123, R124). -/
theorem registerSkips : Obligations.RegisterSkips := fun s x y =>
  ⟨⟨_, exec_seReg s x y, skipIf_pc_eq_add s beq_iff_eq, SameExcept.refl.skipIf⟩,
    ⟨_, exec_sneReg s x y, skipIf_not_pc_eq_add s beq_iff_eq, SameExcept.refl.skipIf⟩⟩

end Sys2Proof.Machine

/-! ## Arithmetic and logic on the registers (R130 to R144, R151) -/

namespace Sys2Proof.Machine

section written
variable (s : State) (x : Nibble) (v : Byte)

theorem setReg_reg_same : (s.setReg x v).reg x = v := by
  rw [State.setReg_reg, if_pos rfl]

theorem setReg_reg_of_ne {r : Nibble} (h : r ≠ x) : (s.setReg x v).reg r = s.reg r := by
  rw [State.setReg_reg, if_neg h]

/-- What an instruction that writes VX alone leaves: every other register, VF included (R134), and every element but the
registers and `PC`. -/
theorem setReg_advance_frame :
    (∀ r, r ≠ x → (s.setReg x v).advance.reg r = s.reg r) ∧ (s.setReg x v).advance.pc = s.pc + 2 ∧
    SameExcept [.v, .pc] s (s.setReg x v).advance :=
  ⟨fun _ => setReg_reg_of_ne s x v, rfl, SameExcept.refl.setReg.advance⟩

end written

/-- Settles O34: both write VX alone, and the 8-bit sum is the sum modulo 256 (R131, R132). -/
theorem loadAndAddImmediate : Obligations.LoadAndAddImmediate := by
  intro s x nn
  constructor
  · exact ⟨_, exec_ldImm s x nn, fun r => State.setReg_reg s x r nn, rfl, SameExcept.refl.setReg.advance⟩
  · refine ⟨_, exec_addImm s x nn, ?_, setReg_advance_frame ..⟩
    rw [State.advance_reg, setReg_reg_same, BitVec.toNat_add]

/-- Settles O35: each writes VX alone, and the logic of two bytes is that of their bits (R133 to R136). -/
theorem copyAndLogic : Obligations.CopyAndLogic := by
  intro s x y
  refine ⟨⟨_, exec_ldReg s x y, fun r => State.setReg_reg s x r _, rfl, SameExcept.refl.setReg.advance⟩,
    ⟨_, exec_or s x y, fun k => ?_, setReg_advance_frame ..⟩,
    ⟨_, exec_and s x y, fun k => ?_, setReg_advance_frame ..⟩,
    ⟨_, exec_xor s x y, fun k => ?_, setReg_advance_frame ..⟩⟩
  · rw [State.advance_reg, setReg_reg_same, BitVec.getLsbD_or]
  · rw [State.advance_reg, setReg_reg_same, BitVec.getLsbD_and]
  · rw [State.advance_reg, setReg_reg_same, BitVec.getLsbD_xor]

/-- Settles O39: the mask is taken bit by bit, whatever byte is drawn (R144). -/
theorem randomByteIsMasked : Obligations.RandomByteIsMasked := by
  intro s x nn
  refine ⟨_, exec_rnd s x nn, fun k => ?_, fun r hr => setReg_reg_of_ne s x _ hr, rfl, rfl,
    SameExcept.refl.setReg.setDraws.advance⟩
  rw [State.advance_reg, State.setDraws_reg, setReg_reg_same, BitVec.getLsbD_and]

/-- The flag byte of a decided comparison (R130). -/
theorem flagByte_decide (p : Prop) [Decidable p] : flagByte (decide p) = if p then 1 else 0 :=
  if_congr decide_eq_true_iff rfl rfl

/-- The difference of two bytes modulo 256, on naturals that do not go below 0 (R138, R140). -/
theorem byte_sub_toNat (a b : Byte) : (a - b).toNat = (a.toNat + 256 - b.toNat) % 256 := by
  have hb := b.isLt
  rw [BitVec.toNat_sub']
  omega

/-- Settles O36: the flag is the carry of the exact sum, and the rest is the frame all flag writers have (R137). -/
theorem addRegistersSetsCarry : Obligations.AddRegistersSetsCarry := by
  intro s x y
  refine ⟨_, exec_addReg s x y, ?_, fun hx => ?_, flagThenResult_advance_frame ..⟩
  · rw [State.advance_reg, flagThenResult_reg_same, BitVec.toNat_add]
  · rw [State.advance_reg, flagThenResult_reg_F s x _ _ hx, carry, flagByte_decide]

/-- What a subtraction `a − b` into VX leaves, with the flag of no borrow; 8XY5 and 8XY7 differ in which operand is `a`
(R138, R140). -/
theorem flagThenResult_notBorrow (s : State) (x : Nibble) (a b : Byte) :
    ((s.flagThenResult x (notBorrow a b) (a - b)).advance.reg x).toNat = (a.toNat + 256 - b.toNat) % 256 ∧
    (x ≠ 0xF → (s.flagThenResult x (notBorrow a b) (a - b)).advance.reg 0xF = if a.toNat ≥ b.toNat then 1 else 0) := by
  constructor
  · rw [State.advance_reg, flagThenResult_reg_same, byte_sub_toNat]
  · intro hx
    rw [State.advance_reg, flagThenResult_reg_F s x _ _ hx, notBorrow, flagByte_decide]

/-- Settles O37: the two subtractions are one, with the operands exchanged. -/
theorem subtractRegistersSetsNotBorrow : Obligations.SubtractRegistersSetsNotBorrow := by
  intro s x y
  obtain ⟨hsub, hsubFlag⟩ := flagThenResult_notBorrow s x (s.reg x) (s.reg y)
  obtain ⟨hsubn, hsubnFlag⟩ := flagThenResult_notBorrow s x (s.reg y) (s.reg x)
  exact ⟨⟨_, exec_sub s x y, hsub, hsubFlag, flagThenResult_advance_frame ..⟩,
    ⟨_, exec_subn s x y, hsubn, hsubnFlag, flagThenResult_advance_frame ..⟩⟩

/-- Settles O41: `I` is the 16-bit sum with the zero-extended byte, and VF is the one register written, so X = F is no
case apart (R151). -/
theorem addToIndexRegister : Obligations.AddToIndexRegister := by
  intro s x
  refine ⟨_, exec_addI s x, ?_, (setReg_reg_same s 0xF _).trans (flagByte_decide _),
    fun r hr => setReg_reg_of_ne s 0xF _ hr, rfl, SameExcept.refl.setReg.setI.advance⟩
  rw [State.advance_i, State.setI_i, BitVec.toNat_add, zext8_toNat]

end Sys2Proof.Machine

/-! ## Index register, and block store and load together (R150, R152, R157) -/

namespace Sys2Proof.Machine

/-- A block store that completed was in range, left `I`, and left each register it names at that register's address
(R154, R156). -/
theorem exec_stRegs_stores {s t : State} {x : Nibble} (hwf : s.mem.wf = true) (h : exec (.stRegs x) s = .next t) :
    s.ea x.toNat ≤ 0xFFF ∧ t.i = s.i ∧ ∀ r : Nibble, r.toNat ≤ x.toNat → t.mem.read (s.ea r.toNat) = s.reg r := by
  obtain ⟨hle, -⟩ := State.inRange_next h
  obtain ⟨t', hexec, hstored, -, -, hframe⟩ := (storeRegisters s x hwf).1 hle
  obtain rfl : t = t' := Host.Outcome.next.inj (h.symm.trans hexec)
  exact ⟨hle, hframe .i (by decide), hstored⟩

/-- Settles O45: with `I` unchanged the load is in range too, and reads each register from the address the store put it
at. -/
theorem storeThenLoadRestoresRegisters : Obligations.StoreThenLoadRestoresRegisters := by
  intro s t w x hwf hstore hmem hi
  obtain ⟨hle, hit, hstored⟩ := exec_stRegs_stores hwf hstore
  have hea (k : Nat) : w.ea k = s.ea k := by rw [State.ea, State.ea, hi, hit]
  obtain ⟨u, hload, hloaded, -⟩ := (loadRegisters w x).1 ((hea x.toNat).trans_le hle)
  refine ⟨u, hload, fun r hr => ?_⟩
  calc u.reg r
    _ = w.mem.read (w.ea r.toNat) := by rw [hloaded, if_pos hr]
    _ = t.mem.read (s.ea r.toNat) := by rw [hmem, hea]
    _ = s.reg r := hstored r hr

/-- Settles O40: an address immediate and five times a byte both fit in `I` (R150, R152). -/
theorem loadIndexRegister : Obligations.LoadIndexRegister :=
  ⟨fun s nnn => ⟨_, exec_ldI s nnn, zext12_toNat nnn, rfl, SameExcept.refl.setI.advance⟩,
    fun s x => ⟨_, exec_ldF s x, glyphAddr_toNat (s.reg x), rfl, SameExcept.refl.setI.advance⟩⟩

end Sys2Proof.Machine

/-! ## Clearing and drawing again (R161 to R163) -/

namespace Sys2Proof.Machine

/-- Settles O46: the clear display is off in every cell (R161). -/
theorem clearScreen : Obligations.ClearScreen := fun s =>
  ⟨_, exec_cls s, Display.cell_clear, rfl, SameExcept.refl.setDisp.advance⟩

/-! ### Drawing the same sprite again -/

/-- A display is its cells. -/
theorem Display.ext_cell {d e : Display} (h : ∀ x y, Display.cell d x y = Display.cell e x y) : d = e :=
  Vector.ext fun y hy => Vector.ext fun x hx => h ⟨x, hx⟩ ⟨y, hy⟩

/-- Toggling distinct cells is undone by toggling them again. -/
theorem foldl_toggle_twice {ps : List (Fin 64 × Fin 32)} (hnd : ps.Nodup) (d : Display) (f g : Bool) :
    (ps.foldl toggle ((ps.foldl toggle (d, f)).1, g)).1 = d := by
  refine Display.ext_cell fun x y => Bool.eq_iff_iff.2 ?_
  rw [cell_foldl_toggle hnd, cell_foldl_toggle hnd]
  tauto

section again
variable {s w : State} {x y n : Nibble}

/-- The cells DXYN toggles depend on what memory reads as, on `I` and on the coordinates alone (R162). -/
theorem spriteTargets_congr (hmem : ∀ a, w.mem.read a = s.mem.read a) (hi : w.i = s.i) (hx : w.reg x = s.reg x)
    (hy : w.reg y = s.reg y) : w.spriteTargets x y n = s.spriteTargets x y n := by
  simp only [State.spriteTargets, Memory.readBytes, State.ea, hmem, hi, hx, hy]

/-- Whether DXYN completes depends on `I` and N alone (R162, D26). -/
theorem exec_drw_of_completed {t : State} (h : exec (.drw x y n) s = .next t) (hi : w.i = s.i) :
    exec (.drw x y n) w = .next (w.drawn x y n) := by
  have hea : w.ea (n.toNat - 1) = s.ea (n.toNat - 1) := by rw [State.ea, State.ea, hi]
  rw [exec_drw] at h
  rw [exec_drw, hea]
  split at h
  · exact if_pos ‹_›
  · cases h

end again

/-- Settles O48: both draws toggle the same distinct cells, since the first leaves memory and `I` alone. -/
theorem drawingTwiceRestoresDisplay : Obligations.DrawingTwiceRestoresDisplay := by
  intro s t w x y n h hmem hi hdisp hx hy
  obtain rfl := exec_drw_next h
  refine ⟨w.drawn x y n, exec_drw_of_completed h hi, ?_⟩
  have hsame : w.spriteTargets x y n = s.spriteTargets x y n := spriteTargets_congr hmem hi hx hy
  rw [drawn_disp, State.sprite_eq_foldl_toggle, hsame, hdisp, drawn_disp, State.sprite_eq_foldl_toggle]
  exact foldl_toggle_twice (s.nodup_spriteTargets x y n) s.disp false false

/-- A machine that has just drawn the top row of glyph 0, the byte 0xF0, at the origin: the four cells are on. -/
def glyphRowShown : State := State.reset.drawn 0x0 0x0 0x1

/-- Refutes O49: with the sprite's cells on, the first of the two draws turns them all off, so the second finds none on and
reports VF = 0, though its byte 0xF0 has 1 bits (entry 18). -/
theorem not_secondDrawReportsEverySetBit : ¬ Obligations.SecondDrawReportsEverySetBit := by
  intro h
  have hreports := h glyphRowShown (glyphRowShown.drawn 0x0 0x0 0x1) (glyphRowShown.drawn 0x0 0x0 0x1)
    ((glyphRowShown.drawn 0x0 0x0 0x1).drawn 0x0 0x0 0x1) 0x0 0x0 0x1 rfl (fun _ => rfl) rfl rfl
    (by decide) (by decide) rfl
  have hnoCollision : ((glyphRowShown.drawn 0x0 0x0 0x1).drawn 0x0 0x0 0x1).reg 0xF ≠ 1 := by decide
  have hbit : glyphRowShown.mem.read (glyphRowShown.ea 0) ≠ 0 := by decide
  exact hnoCollision (hreports.2 ⟨0, by decide, hbit⟩)

/-! ### The two edge policies (R163) -/

section inside
variable {x0 y0 : Byte} {r : Nat}

theorem targetCell_clip_of_inside {c : Nat} (hx : x0.toNat + c < 64) (hy : y0.toNat + r < 32) :
    targetCell .clip x0 y0 r c = targetCell .wrap x0 y0 r c := if_pos ⟨hx, hy⟩

theorem rowTargets_clip_of_inside (hx : x0.toNat ≤ 56) (hy : y0.toNat + r < 32) (b : Byte) :
    rowTargets .clip x0 y0 r b = rowTargets .wrap x0 y0 r b := by
  refine List.filterMap_congr fun c hc => ?_
  have hcol : x0.toNat + c < 64 := by have := List.mem_range.1 hc; omega
  rw [targetCell_clip_of_inside hcol hy]

/-- A sprite whose rows all lie inside the grid falls on the same cells under both policies. -/
theorem spriteTargets_clip_of_inside {bs : List Byte} (hx : x0.toNat ≤ 56) (hy : y0.toNat + (r + bs.length) ≤ 32) :
    spriteTargets .clip x0 y0 r bs = spriteTargets .wrap x0 y0 r bs := by
  induction bs generalizing r with
  | nil => rfl
  | cons b bs ih =>
    rw [List.length_cons] at hy
    rw [spriteTargets, spriteTargets, rowTargets_clip_of_inside hx (by omega), ih (by omega)]

end inside

/-- Settles O50: inside the grid no bit is dropped, so the two policies toggle the same cells in the same order. -/
theorem edgePoliciesAgreeInsideGrid : Obligations.EdgePoliciesAgreeInsideGrid := by
  intro x0 y0 sprite d hx hy
  rw [drawSprite_eq_foldl_toggle, drawSprite_eq_foldl_toggle, spriteTargets_clip_of_inside hx (by omega)]

end Sys2Proof.Machine

/-! ## The keypad (R170 to R177) -/

namespace Sys2Proof.Machine

/-! ### The skips on a key, and what does not read the keys (R170 to R172) -/

section named
variable {s : State} {x : Nibble} (h : (s.reg x).toNat ≤ 15)
include h

/-- With VX a key index, EX9E tests the key it names (R171). -/
theorem exec_skp_of_key : exec (.skp x) s = .next (s.skipIf (keyAt s (s.reg x))) := by
  rw [exec_skp, State.withKey_of_le h, keyDown_setWidth s h]

/-- With VX a key index, EXA1 tests that the key it names is not pressed (R172). -/
theorem exec_sknp_of_key : exec (.sknp x) s = .next (s.skipIf !(keyAt s (s.reg x))) := by
  rw [exec_sknp, State.withKey_of_le h, keyDown_setWidth s h]

end named

/-- Settles O33: up to 15 the whole byte names the key tested, above 15 both skips stop at the key check. -/
theorem keySkips : Obligations.KeySkips := by
  intro s x
  constructor
  · intro hle
    exact ⟨⟨_, exec_skp_of_key hle, skipIf_pc_eq_add s .rfl, SameExcept.refl.skipIf⟩,
      ⟨_, exec_sknp_of_key hle, skipIf_not_pc_eq_add s .rfl, SameExcept.refl.skipIf⟩⟩
  · intro hgt
    rw [exec_skp, exec_sknp]
    exact ⟨State.withKey_of_gt hgt, State.withKey_of_gt hgt⟩

section keyUnread
variable (s : State) (k : Nibble) (b : Bool)

theorem push_setKey (w : Word) : (s.setKey k b).push w = (s.push w).map (·.setKey k b) := by
  rw [State.push, State.push, apply_dite (Option.map _)]; rfl

theorem pop_setKey : (s.setKey k b).pop = s.pop.map fun p => (p.1, p.2.setKey k b) := by
  rw [State.pop, State.pop, apply_dite (Option.map _)]; rfl

theorem loadRegs_setKey (base n : Nat) : (s.setKey k b).loadRegs base n = (s.loadRegs base n).setKey k b := by
  induction n with
  | zero => rfl
  | succ n ih => rw [State.loadRegs, ih]; rfl

theorem inRange_setKey (last : Nat) (t : State) :
    (s.setKey k b).inRange last (.next (t.setKey k b)) = mapNext (·.setKey k b) (s.inRange last (.next t)) :=
  inRange_mapNext (g := (·.setKey k b)) rfl last (.next t)

/-- Only EX9E and EXA1 read the keys: every other instruction does the same before a key event and after it (R170). -/
theorem exec_setKey {i : Instr} (hskp : ∀ x, i ≠ .skp x) (hsknp : ∀ x, i ≠ .sknp x) :
    exec i (s.setKey k b) = mapNext (·.setKey k b) (exec i s) := by
  cases i with
  | skp x => exact absurd rfl (hskp x)
  | sknp x => exact absurd rfl (hsknp x)
  | call nnn =>
    rw [exec, exec, execCall, execCall, State.setKey_pc, push_setKey]
    cases s.push s.pc <;> rfl
  | ret =>
    rw [exec, exec, execRet, execRet, pop_setKey]
    cases s.pop <;> rfl
  | drw => rw [exec_drw, exec_drw, apply_ite (mapNext _)]; rfl
  | ldB x => exact inRange_setKey s k b 2 (s.stored (decimalDigits (s.reg x)))
  | stRegs x => exact inRange_setKey s k b x.toNat (s.stored (s.regsUpTo x))
  | ldRegs =>
    rw [exec_ldRegs, loadRegs_setKey]
    exact inRange_setKey s k b _ (State.advance _)
  | _ => rfl

end keyUnread

/-- Settles O58: the statement's match is `mapNext`, whatever the instruction answers. -/
theorem onlyKeySkipsReadKeys : Obligations.OnlyKeySkipsReadKeys := by
  intro i s k b hskp hsknp
  rw [exec_setKey s k b hskp hsknp]
  cases exec i s <;> rfl

/-! ### Key events and the wait (R173 to R177) -/

@[simp] theorem State.beginTick_waitReg (s : State) : s.beginTick.waitReg = s.waitReg := rfl

theorem SameExcept.beginTick {l : List Elem} {s t : State} (h : SameExcept l s t) (hw : .host ∈ l := by simp) :
    SameExcept l s t.beginTick := (h.beginOp hw).setLoadOpen hw

section event
variable {s : State} {k : Nibble}

theorem step_of_keyPress_running (ho : s.nextOp = .keyPress k) (hm : s.mode = .running) :
    step s = .next (s.beginTick.setKey k true) := by
  rw [step_eq, ho, ← State.keyPress_running (s := s.beginTick) k hm]; rfl

theorem step_of_keyPress_waiting (ho : s.nextOp = .keyPress k) (hm : s.mode = .waitingForKey) :
    step s = .next (((s.beginTick.setKey k true).setReg s.waitReg (zext4 k)).setMode .running).advance := by
  rw [step_eq, ho]
  exact congrArg _ (State.keyPress_waiting (s := s.beginTick) k hm)

theorem step_of_keyRelease (ho : s.nextOp = .keyRelease k) : step s = .next (s.beginTick.setKey k false) := by
  rw [step_eq, ho]; rfl

end event

/-- Settles O22: in RUNNING mode the press writes KEY[k] alone (R174). -/
theorem keyPressWhileRunningSetsKey : Obligations.KeyPressWhileRunningSetsKey := fun s k ho hm =>
  ⟨_, step_of_keyPress_running ho hm, fun q => State.setKey_keyDown s.beginTick k q true,
    SameExcept.refl.beginTick.setKey⟩

/-- Settles O23: a release writes KEY[k] alone, whatever the mode, so a wait goes on (R176). -/
theorem keyReleaseClearsKey : Obligations.KeyReleaseClearsKey := fun s k ho =>
  ⟨_, step_of_keyRelease ho, fun q => State.setKey_keyDown s.beginTick k q false,
    SameExcept.refl.beginTick.setKey⟩

/-- Settles O24: the press that ends a wait writes KEY[k], the pending register, the mode and `PC`, each once, and a key
index is the same number as a byte (R175). -/
theorem keyPressResolvesWait : Obligations.KeyPressResolvesWait := by
  intro s k ho hm
  refine ⟨_, step_of_keyPress_waiting ho hm, fun q => State.setKey_keyDown s.beginTick k q true, ?stored,
    fun r hr => ?others, rfl, ?pending, ?pc, SameExcept.refl.beginTick.setKey.setReg.setMode.advance⟩
  case stored => rw [State.advance_reg, State.setMode_reg, setReg_reg_same, zext4_toNat]
  case others => simp [hr]
  case pending => simp
  case pc => simp

/-- Settles O51: FX0A writes the mode and WAIT_REG, which the frame counts as one element (R173). -/
theorem waitForKeySuspends : Obligations.WaitForKeySuspends := fun s x =>
  ⟨_, exec_ldVxK s x, rfl, rfl, SameExcept.refl.setMode.setWaitReg⟩

end Sys2Proof.Machine

/-! ## Timer moves and listed faults (R181 to R183, R190) -/

namespace Sys2Proof.Machine

/-- Settles O52: each writes its one destination and `PC` (R181, R182, R183). -/
theorem timerMoves : Obligations.TimerMoves := fun s x =>
  ⟨⟨_, exec_ldVxDt s x, fun r => State.setReg_reg s x r s.dt, rfl, SameExcept.refl.setReg.advance⟩,
    ⟨_, exec_ldDtVx s x, rfl, rfl, SameExcept.refl.setDt.advance⟩,
    ⟨_, exec_ldStVx s x, rfl, rfl, SameExcept.refl.setSt.advance⟩⟩

/-- Settles O10: `exec_answers`, which has each instruction answer its row of R190, read at the fault `f`. -/
theorem instructionFaultsExactlyAsListed : Obligations.InstructionFaultsExactlyAsListed :=
  fun i s _ => (exec_answers i s).fault_iff

end Sys2Proof.Machine

/-! ## The canonical form of memory is unique (entry 30) -/

namespace Sys2Proof.Machine

namespace Memory

variable {lo a : Nat} {x : Byte} {m n rest : Memory}

/-- What the canonical form asks of the first cell and of the rest. -/
theorem wfFrom_cell : wfFrom lo ((a, x) :: rest) = true ↔
    lo ≤ a ∧ a < Config.memSize ∧ x ≠ blank a ∧ wfFrom (a + 1) rest = true := by
  simp only [wfFrom, Bool.and_eq_true, decide_eq_true_eq, bne_iff_ne, and_assoc]

theorem read_cell_same : read ((a, x) :: rest) a = x := if_pos rfl

theorem read_cell_of_ne {b : Nat} (h : b ≠ a) : read ((a, x) :: rest) b = read rest b := if_neg h

/-- The first address listed in a canonical memory does not read blank, so a memory that reads alike lists a cell there or
below. -/
theorem not_wfFrom_above_first (wm : wfFrom lo ((a, x) :: rest) = true) (h : ∀ c, read ((a, x) :: rest) c = read n c) :
    ¬ wfFrom (a + 1) n = true := by
  intro wn
  obtain ⟨-, -, hx, -⟩ := wfFrom_cell.1 wm
  refine hx ?_
  calc x
    _ = read ((a, x) :: rest) a := read_cell_same.symm
    _ = read n a := h a
    _ = blank a := read_of_lt_wfFrom wn (Nat.lt_succ_self a)

/-- Of two canonical memories that read alike, neither lists its first cell above the other's. -/
theorem first_le_first {b : Nat} {y : Byte} {rest' : Memory} (wm : wfFrom lo ((a, x) :: rest) = true)
    (wn : wfFrom lo ((b, y) :: rest') = true) (h : ∀ c, read ((a, x) :: rest) c = read ((b, y) :: rest') c) : b ≤ a := by
  by_contra hab
  obtain ⟨-, hcell⟩ := wfFrom_cell.1 wn
  exact not_wfFrom_above_first wm h (wfFrom_cell.2 ⟨Nat.not_le.1 hab, hcell⟩)

/-- Reading tells canonical memories apart: the first cells agree in address and byte, and then the rests read alike. -/
theorem eq_of_read_eq (wm : wfFrom lo m = true) (wn : wfFrom lo n = true) (h : ∀ c, read m c = read n c) : m = n := by
  induction m generalizing lo n with
  | nil =>
    cases n with
    | nil => rfl
    | cons d n => exact absurd rfl (not_wfFrom_above_first wn fun c => (h c).symm)
  | cons d m ih =>
    obtain ⟨a, x⟩ := d
    cases n with
    | nil => exact absurd rfl (not_wfFrom_above_first wm h)
    | cons e n =>
      obtain ⟨b, y⟩ := e
      obtain rfl : a = b := Nat.le_antisymm (first_le_first wn wm fun c => (h c).symm) (first_le_first wm wn h)
      obtain rfl : x = y := by simpa only [read_cell_same] using h a
      obtain ⟨-, -, -, hm⟩ := wfFrom_cell.1 wm
      obtain ⟨-, -, -, hn⟩ := wfFrom_cell.1 wn
      have hrest (c : Nat) : read m c = read n c := by
        by_cases hc : c = a
        · have hlt : c < a + 1 := hc.trans_lt (Nat.lt_succ_self a)
          rw [read_of_lt_wfFrom hm hlt, read_of_lt_wfFrom hn hlt]
        · simpa only [read_cell_of_ne hc] using h c
      rw [ih hm hn hrest]

end Memory

/-- Settles O17: the canonical form, from address 0 on, is determined by what is read. -/
theorem canonicalMemoriesReadingAlikeAreEqual : Obligations.CanonicalMemoriesReadingAlikeAreEqual :=
  fun _ _ => Memory.eq_of_read_eq

end Sys2Proof.Machine
